-- ==== Sys2Proof/Word.lean ====
section
/-! DEFINITION. The 32-bit value of the operand and result ports, and its two readings (spec/00_scope.md R5, R6). -/

namespace Sys2Proof

/-- A 32-bit value: bit 0 is the least significant, bit 31 the sign bit (spec/00_scope.md R5, R6). -/
abbrev Word := BitVec 32

/-- The unsigned reading, in the range 0 to 2^32 - 1 (spec/00_scope.md R6). -/
abbrev uint (v : Word) : Nat := v.toNat

/-- The two's-complement signed reading, in the range -2^31 to 2^31 - 1 (spec/00_scope.md R6). -/
abbrev sint (v : Word) : Int := v.toInt

end Sys2Proof
end

