-- ==== Sys2Proof/Config.lean ====
section
/-! DEFINITION. What the spec's decisions fix about the ports, and the port levels this model drives at reset. The block has
no implementation parameter (spec/00_scope.md R5) and no open value, so there is no free value here
(spec/93_implementation_defined.md section 1). -/

namespace Sys2Proof

/-- The one reserved value of the operation-select port (spec/30_encoding.md R43). -/
def Config.reservedCode : BitVec 3 := 0b111#3

/-- DESIGN CHOICE (log entry 3): the level of `op` at reset; the spec gives none. -/
def Config.resetOp : BitVec 3 := 0b000#3

/-- DESIGN CHOICE (log entry 3): the level of `a` and of `b` at reset; the spec gives none. -/
def Config.resetOperand : Word := 0x00000000#32

/-- DESIGN CHOICE (log entry 3): the level of `cin` at reset; the spec gives none. It is not the caller's `C0`
(spec/10_state.md R24), and the operation on `op` at reset ignores it. -/
def Config.resetCin : Bool := false

end Sys2Proof
end

