-- ==== Sys2Proof/Syntax.lean ====
section
/-! DEFINITION. The seven operations, and the request that selects one (spec/30_encoding.md R40, R41, R45). -/

namespace Sys2Proof

/-- The seven operations, one per row of spec/opcode_table.json and in its order. The set is closed (spec/30_encoding.md
R41, R47). The operands are port values and not fields of an instruction (R40, R44), so no constructor has a field. -/
inductive Instr where
  /-- ADD, `add(a,b)`: a + b, carry-in ignored (spec/41_add_adc.md R70). -/
  | add
  /-- ADC, `adc(a,b,C)`: a + b + C (spec/41_add_adc.md R71). -/
  | adc
  /-- SUB, `sub(a,b)`: a - b, carry-in ignored (spec/42_sub_sbc.md R75). -/
  | sub
  /-- SBC, `sbc(a,b,C)`: a - b - (1 - C) (spec/42_sub_sbc.md R76). -/
  | sbc
  /-- RSB, `rsb(a,b)`: b - a, carry-in ignored (spec/43_rsb_rsc.md R80). -/
  | rsb
  /-- RSC, `rsc(a,b,C)`: b - a - (1 - C) (spec/43_rsb_rsc.md R81). -/
  | rsc
  /-- CMP, `cmp(a,b)`: a - b, carry-in ignored, its result discarded by the caller (spec/44_cmp.md R85, R87). -/
  | cmp
  deriving DecidableEq, Repr

/-- The values on the four input ports at one instant (spec/10_state.md R15, spec/30_encoding.md R40: format `REQ`). -/
structure Request where
  /-- `op[2:0]`, the operation select. -/
  op : BitVec 3
  /-- `a[31:0]`, the first operand. -/
  a : Word
  /-- `b[31:0]`, the second operand. -/
  b : Word
  /-- `cin`, the carry-in. -/
  cin : Bool
  deriving DecidableEq, Repr

end Sys2Proof
end

