-- ==== Sys2Proof/Machine/State.lean ====
section
/-! DEFINITION. What the model holds: the values on the block's ports, and why a step can stop. The block itself stores
nothing (spec/10_state.md R17 to R22); log entries 1 and 2 say what it means to hold port values. -/

namespace Sys2Proof.Machine

/-- The values on the five output ports: a result and a complete fresh set of flags (spec/10_state.md R13, R14, R16). -/
structure Response where
  /-- `result[31:0]`. -/
  result : Word
  /-- `n`, negative. -/
  n : Bool
  /-- `z`, zero. -/
  z : Bool
  /-- `c`, carry; after a subtraction, no borrow. -/
  c : Bool
  /-- `v`, signed overflow. -/
  v : Bool
  deriving DecidableEq, Repr

/-- The port values: the request now on the input ports, and the response of the last evaluation
(spec/10_state.md R15, R16). There is no other state (R17 to R20, R22). -/
structure State where
  /-- The input ports. The caller drives them; the block never does (spec/10_state.md R14, R23). -/
  req : Request
  /-- The output ports. No evaluation reads them (spec/10_state.md R21, R22). -/
  resp : Response
  deriving DecidableEq, Repr

/-- The faults of the block: none. "This module has no failure modes", and the list of exception causes is empty
(spec/60_exceptions.md R90; log entry 10). -/
inductive Fault where
  deriving DecidableEq, Repr

/-- Why the model refuses to take a step. -/
inductive Refusal where
  /-- Raised by `exec` for an operation that has no meaning yet. No arm raises it: all seven operations are modelled. Safe. -/
  | notModelled (mnemonic : String)
  /-- Raised by `step` for `op = 0b111`, which the spec gives no meaning and a model refuses
  (spec/30_encoding.md R43, spec/93_implementation_defined.md U1; log entry 5). Safe: nothing can be proved of a response
  to it. -/
  | reservedOperation
  deriving DecidableEq, Repr

/-- The ports at reset. The block has no reset (spec/70_reset_and_hazards.md R100) and its list of reset values is empty
(spec/10_state.md R25). The input levels are a DESIGN CHOICE (log entry 3); the outputs are what R25 and R100 give for those
inputs, the response to ADD 0, 0 (DEDUCED, log entry 4). -/
def State.reset : State :=
  { req := { op := Config.resetOp, a := Config.resetOperand, b := Config.resetOperand, cin := Config.resetCin }
    resp := { result := 0x00000000#32, n := false, z := true, c := false, v := false } }

end Sys2Proof.Machine
end

