-- ==== Sys2Proof/Machine/Flags.lean ====
section
/-! DEFINITION. Every flag computation of the spec: the overflow formulas of the two primitives, the N and Z of a result, the
carry into bit 31 (spec/40_primitives.md R53, R57, R58, R65). Each reads the 32-bit port values alone: the note on the sign
handling of the two overflow formulas has no effect at the bit level (R64, spec/90_conflicts.md C1; log entry 17). -/

namespace Sys2Proof.Machine

/-- Bit 31, the sign bit (spec/00_scope.md R6). -/
def signBit (v : Word) : Bool := v.getLsbD 31

/-- N: bit 31 of the result (spec/40_primitives.md R58). -/
def negative (r : Word) : Bool := signBit r

/-- Z: all 32 bits of the result are 0 (spec/40_primitives.md R58). -/
def zero (r : Word) : Bool := r == 0#32

/-- V of the addition primitive: bit 31 of `NOT(x XOR y) AND (x XOR r)` (spec/40_primitives.md R53). -/
def addOverflow (x y r : Word) : Bool := signBit (~~~(x ^^^ y) &&& (x ^^^ r))

/-- V of the subtraction primitive: bit 31 of `(x XOR y) AND (x XOR r)` (spec/40_primitives.md R57). -/
def subOverflow (x y r : Word) : Bool := signBit ((x ^^^ y) &&& (x ^^^ r))

/-- `c31`, the carry into bit position 31 of `x + y + ci` (spec/40_primitives.md R65). -/
def carryInto31 (x y : Word) (ci : Bool) : Bool :=
  decide (2 ^ 31 ≤ (x.extractLsb' 0 31).toNat + (y.extractLsb' 0 31).toNat + ci.toNat)

end Sys2Proof.Machine
end

