-- ==== Sys2Proof/WellFormed.lean ====
section
/-! DEFINITION. What a caller may present: the one check the spec makes of a request (spec/30_encoding.md R43,
spec/70_reset_and_hazards.md R101). An `Instr` has no field and is well formed by its type. -/

namespace Sys2Proof

/-- The request carries one of the seven defined codes. Every value of `a`, `b` and `cin` is legal with each of them, so
nothing else is checked (spec/30_encoding.md R43, spec/60_exceptions.md R90, R96). -/
def Request.wellFormed (q : Request) : Bool := q.op != Config.reservedCode

end Sys2Proof
end

