-- ==== Sys2Proof/Decode.lean ====
section
/-! DEFINITION. From the operation-select port to the operation, and back (spec/30_encoding.md R41, R43). -/

namespace Sys2Proof

/-- Why a value of `op` selects no operation. -/
inductive DecodeError where
  /-- `op = 0b111`, reserved and without a meaning (spec/30_encoding.md R43). -/
  | reserved
  deriving DecidableEq, Repr

/-- The operation that a value of `op[2:0]` selects: the codes 0 to 6 in the order of the operation table, and none for
`0b111` (spec/30_encoding.md R41, R43). A three-bit value has no eighth code but 7, so the last arm is `0b111` alone. -/
def decodeOp (op : BitVec 3) : Except DecodeError Instr :=
  match op.toNat with
  | 0 => .ok .add
  | 1 => .ok .adc
  | 2 => .ok .sub
  | 3 => .ok .sbc
  | 4 => .ok .rsb
  | 5 => .ok .rsc
  | 6 => .ok .cmp
  | _ => .error .reserved

/-- The code of an operation (spec/30_encoding.md R41). -/
def encode (i : Instr) : BitVec 3 :=
  match i with
  | .add => 0b000#3
  | .adc => 0b001#3
  | .sub => 0b010#3
  | .sbc => 0b011#3
  | .rsb => 0b100#3
  | .rsc => 0b101#3
  | .cmp => 0b110#3

/-- What a table word of `nbits` bits drives onto the three wires of `op`: bits 2 to 0 of the word, each bit at or above
`nbits` being 0. The port has no wire for a higher bit (log entry 11). -/
def opOfTableWord (nbits w : Nat) : BitVec 3 := BitVec.ofNat 3 (w % 2 ^ nbits)

/-- The operation that the decoder reads from a table word (spec/opcode_table.json: match and mask apply to `op[2:0]`). -/
def decodeTableWord (nbits w : Nat) : Option Instr :=
  match decodeOp (opOfTableWord nbits w) with
  | .ok i => some i
  | .error .reserved => none

end Sys2Proof
end

