-- ==== Sys2Proof/Machine/Operands.lean ====
section
/-! DEFINITION. Operand assembly (spec/30_encoding.md R44), and the reduction of wider integers at the port
(spec/10_state.md R11). -/

namespace Sys2Proof.Machine

/-- `trunc32(k)`: the 32-bit value `r` with `uint(r) = k mod 2^32`, the mathematical remainder (spec/00_scope.md R7). -/
def trunc32 (k : Int) : Word := BitVec.ofInt 32 k

/-- `norm32(k) = sint(trunc32(k))`, two's-complement normalisation (spec/00_scope.md R7, R8). -/
def norm32 (k : Int) : Int := sint (trunc32 k)

/-- The operation that the `op` port selects. -/
def State.selected (s : State) : Except DecodeError Instr := decodeOp s.req.op

/-- The first operand, at full width as presented (spec/30_encoding.md R44). -/
def State.operandA (s : State) : Word := s.req.a

/-- The second operand, at full width as presented (spec/30_encoding.md R44). -/
def State.operandB (s : State) : Word := s.req.b

/-- The carry-in, uninverted, as ADC uses it (spec/41_add_adc.md R71). -/
def State.carryIn (s : State) : Bool := s.req.cin

/-- The borrow-in of SBC and RSC, `1 - cin` (spec/30_encoding.md R44). -/
def borrowOf (cin : Bool) : Bool := !cin

/-- The borrow-in read from the `cin` port (spec/42_sub_sbc.md R76, spec/43_rsb_rsc.md R81). -/
def State.borrowIn (s : State) : Bool := borrowOf s.carryIn

/-- Control signal `swap`: 1 for RSB and RSC (spec/30_encoding.md R44). -/
def swapOf (i : Instr) : Bool :=
  match i with
  | .rsb | .rsc => true
  | .add | .adc | .sub | .sbc | .cmp => false

/-- Control signal `sub`: 1 for SUB, SBC, RSB, RSC and CMP (spec/30_encoding.md R44). -/
def subOf (i : Instr) : Bool :=
  match i with
  | .sub | .sbc | .rsb | .rsc | .cmp => true
  | .add | .adc => false

/-- Control signal `usec`: 1 for the with-carry variants ADC, SBC and RSC (spec/30_encoding.md R44, spec/00_scope.md R8). -/
def usecOf (i : Instr) : Bool :=
  match i with
  | .adc | .sbc | .rsc => true
  | .add | .sub | .rsb | .cmp => false

end Sys2Proof.Machine
end

