-- ==== Sys2Proof/Machine/Ops.lean ====
section
/-! DEFINITION. The two primitives that underlie all seven operations, the flag packing they share, and the one operation that
drives the output ports (spec/40_primitives.md R50 to R59). There is no memory, no register file and no exception to have
operations for (spec/20_memory.md R30, spec/10_state.md R18, spec/60_exceptions.md R90, R93, R94). -/

namespace Sys2Proof.Machine

/-- The three outputs `(r, co, vo)` of a primitive (spec/30_encoding.md R42). -/
structure PrimResult where
  /-- The 32-bit result. -/
  r : Word
  /-- Carry-out; of a subtraction, no borrow. -/
  co : Bool
  /-- Signed overflow. -/
  vo : Bool
  deriving DecidableEq, Repr

/-- `sum33`, the exact sum in 33 bits, which never wraps (spec/40_primitives.md R50). -/
def sum33 (x y : Word) (ci : Bool) : BitVec 33 :=
  x.setWidth 33 + y.setWidth 33 + (BitVec.ofBool ci).setWidth 33

/-- The addition primitive: the result is `sum33[31:0]` and the carry-out `sum33[32]` (spec/40_primitives.md R50 to R53). -/
def addWithCarry (x y : Word) (ci : Bool) : PrimResult :=
  let sum := sum33 x y ci
  let r : Word := sum.extractLsb' 0 32
  { r := r, co := sum.getLsbD 32, vo := addOverflow x y r }

/-- The exact difference, an integer that may be negative (spec/40_primitives.md R54). -/
def exactDiff (x y : Word) (bi : Bool) : Int := (uint x : Int) - (uint y : Int) - (bi.toNat : Int)

/-- The subtraction primitive: the truncated difference, carry-out 1 when no borrow occurred
(spec/40_primitives.md R54 to R57). -/
def subWithBorrow (x y : Word) (bi : Bool) : PrimResult :=
  let diff := exactDiff x y bi
  let r := trunc32 diff
  { r := r, co := decide (0 ≤ diff), vo := subOverflow x y r }

/-- Flag packing, shared by all operations: N and Z from the truncated result, C and V as the primitive computed them
(spec/40_primitives.md R58, R59). -/
def packFlags (p : PrimResult) : Response :=
  { result := p.r, n := negative p.r, z := zero p.r, c := p.co, v := p.vo }

/-- Drive all five output ports; the input ports stay as the caller drives them (spec/10_state.md R13, R14). -/
def State.respond (s : State) (t : Response) : State := { s with resp := t }

/-- Complete an evaluation with a primitive's outputs: pack the flags and drive the outputs. -/
def State.finish (s : State) (p : PrimResult) : Host.Outcome State Fault Refusal := .next (s.respond (packFlags p))

/-- Drive the `op` port alone. -/
def State.driveOp (s : State) (op : BitVec 3) : State := { s with req := { s.req with op := op } }

end Sys2Proof.Machine
end

