-- ==== Sys2Proof/Machine/Add.lean ====
section
/-! DEFINITION. The add family (spec/41_add_adc.md). -/

namespace Sys2Proof.Machine

/-- ADD is `AddWithCarry(a, b, 0)` (spec/41_add_adc.md R70, spec/30_encoding.md R42). -/
def execAdd (s : State) : Host.Outcome State Fault Refusal :=
  s.finish (addWithCarry s.operandA s.operandB false)

/-- ADC is `AddWithCarry(a, b, cin)` (spec/41_add_adc.md R71, spec/30_encoding.md R42). -/
def execAdc (s : State) : Host.Outcome State Fault Refusal :=
  s.finish (addWithCarry s.operandA s.operandB s.carryIn)

end Sys2Proof.Machine
end

