-- ==== Sys2Proof/Machine/Compare.lean ====
section
/-! DEFINITION. The compare operation (spec/44_cmp.md). -/

namespace Sys2Proof.Machine

/-- CMP is `SubWithBorrow(a, b, 0)`. The difference is driven on `result` exactly as for SUB: discarding it is the caller's
policy (spec/44_cmp.md R85, R87, spec/90_conflicts.md C7; log entry 18). -/
def execCmp (s : State) : Host.Outcome State Fault Refusal :=
  s.finish (subWithBorrow s.operandA s.operandB false)

end Sys2Proof.Machine
end

