-- ==== Sys2Proof/Machine/ReverseSubtract.lean ====
section
/-! DEFINITION. The reverse-subtract family: port `b` is the minuend and port `a` the subtrahend (spec/43_rsb_rsc.md). -/

namespace Sys2Proof.Machine

/-- RSB is `SubWithBorrow(b, a, 0)` (spec/43_rsb_rsc.md R80, spec/30_encoding.md R42). -/
def execRsb (s : State) : Host.Outcome State Fault Refusal :=
  s.finish (subWithBorrow s.operandB s.operandA false)

/-- RSC is `SubWithBorrow(b, a, 1 - cin)` (spec/43_rsb_rsc.md R81, spec/30_encoding.md R42). -/
def execRsc (s : State) : Host.Outcome State Fault Refusal :=
  s.finish (subWithBorrow s.operandB s.operandA s.borrowIn)

end Sys2Proof.Machine
end

