-- ==== Sys2Proof/Machine/Subtract.lean ====
section
/-! DEFINITION. The subtract family in natural operand order (spec/42_sub_sbc.md). -/

namespace Sys2Proof.Machine

/-- SUB is `SubWithBorrow(a, b, 0)` (spec/42_sub_sbc.md R75, spec/30_encoding.md R42). -/
def execSub (s : State) : Host.Outcome State Fault Refusal :=
  s.finish (subWithBorrow s.operandA s.operandB false)

/-- SBC is `SubWithBorrow(a, b, 1 - cin)` (spec/42_sub_sbc.md R76, spec/30_encoding.md R42). -/
def execSbc (s : State) : Host.Outcome State Fault Refusal :=
  s.finish (subWithBorrow s.operandA s.operandB s.borrowIn)

end Sys2Proof.Machine
end

