-- ==== Sys2Proof/Machine/Dispatch.lean ====
section
/-! DEFINITION. One arm per operation (spec/30_encoding.md R41, R42). -/

namespace Sys2Proof.Machine

def exec (i : Instr) (s : State) : Host.Outcome State Fault Refusal :=
  match i with
  | .add => Sys2Proof.Machine.execAdd s
  | .adc => Sys2Proof.Machine.execAdc s
  | .sub => Sys2Proof.Machine.execSub s
  | .sbc => Sys2Proof.Machine.execSbc s
  | .rsb => Sys2Proof.Machine.execRsb s
  | .rsc => Sys2Proof.Machine.execRsc s
  | .cmp => Sys2Proof.Machine.execCmp s

end Sys2Proof.Machine
end

