-- ==== Sys2Proof/Machine/Step.lean ====
section
/-! DEFINITION. One step is one evaluation of the request on the input ports (spec/00_scope.md R8, R9; log entry 2). -/

namespace Sys2Proof.Machine

/-- Evaluate the request on the input ports and drive the outputs. The reserved code is refused, never given a response
(spec/30_encoding.md R43). -/
def step (s : State) : Host.Outcome State Fault Refusal :=
  match s.selected with
  | .ok i => exec i s
  | .error .reserved => .refused .reservedOperation

/-- The state with a table word driven onto the `op` port; the operands stand as they are (log entries 11 and 12). -/
def State.withFetchWord (s : State) (nbits w : Nat) : State := s.driveOp (opOfTableWord nbits w)

end Sys2Proof.Machine
end

