-- ==== Sys2Proof/Machine/Caller.lean ====
section
/-! DEFINITION. What the caller can do to the block: present a request (spec/10_state.md R23). The caller's own storage is not
modelled; what it feeds back it feeds back in a request of its own, after the response (R24, spec/70_reset_and_hazards.md R104;
log entries 8 and 13). -/

namespace Sys2Proof.Machine

/-- Drive the four input ports. The output fields keep the last response until the next step (log entry 2). -/
def State.present (s : State) (q : Request) : State := { s with req := q }

/-- Present integers of any size: each is reduced modulo 2^32 at the port (spec/10_state.md R11,
spec/92_eei_decisions.md D6). -/
def State.presentInts (s : State) (op : BitVec 3) (a b : Int) (cin : Bool) : State :=
  s.present { op := op, a := trunc32 a, b := trunc32 b, cin := cin }

/-- Present a request whose carry-in is the carry-out of the last response (spec/10_state.md R23, R24). -/
def State.chain (s : State) (op : BitVec 3) (a b : Word) : State :=
  s.present { op := op, a := a, b := b, cin := s.resp.c }

/-- Present a request whose first operand is the result of the last response and whose carry-in is its carry-out
(spec/10_state.md R23). -/
def State.chainResult (s : State) (op : BitVec 3) (b : Word) : State := s.chain op s.resp.result b

end Sys2Proof.Machine
end

