-- ==== Sys2Proof/Machine/Reference.lean ====
section
/-! DEFINITION. Two whole-block functions from operation and port values to response: the spec's reference listing
(spec/40_primitives.md R69) and its single-adder datapath (R68). `exec` uses neither; statements say all three agree. -/

namespace Sys2Proof.Machine

/-- The whole block as one function (spec/40_primitives.md R69). It has no case for the reserved code. -/
def eval (i : Instr) (a b : Word) (cin : Bool) : Response :=
  match i with
  | .add => packFlags (addWithCarry a b false)
  | .adc => packFlags (addWithCarry a b cin)
  | .sub => packFlags (subWithBorrow a b false)
  | .sbc => packFlags (subWithBorrow a b (borrowOf cin))
  | .rsb => packFlags (subWithBorrow b a false)
  | .rsc => packFlags (subWithBorrow b a (borrowOf cin))
  | .cmp => packFlags (subWithBorrow a b false)

/-- The single-adder datapath: an operand swap, a conditional inverter on the adder's second input, one adder, the flag logic
(spec/40_primitives.md R68). The control signals are those of the seven operations (spec/30_encoding.md R44), so the reserved
code has no datapath value either. -/
def datapath (i : Instr) (a b : Word) (cin : Bool) : Response :=
  let x := if swapOf i then b else a
  let y0 := if swapOf i then a else b
  let y := if subOf i then ~~~y0 else y0
  let ci := if usecOf i then cin else subOf i
  packFlags (addWithCarry x y ci)

end Sys2Proof.Machine
end

