-- ==== Sys2Proof/Safety.lean ====
section
/-! DEFINITION. What counts as a safe run, and what it means for the outputs to be right, said in exact integers and not
through the primitives. -/

namespace Sys2Proof.Machine

/-- The caller keeps its one obligation: the code on `op` is defined (spec/10_state.md R23, spec/70_reset_and_hazards.md
R101). A run is safe when every state of it is. -/
def State.Safe (s : State) : Bool := s.req.wellFormed

/-- An integer lies in the 32-bit signed range, -2^31 to 2^31 - 1 (spec/40_primitives.md R61). -/
abbrev InSigned32 (k : Int) : Prop := -(2 ^ 31) ≤ k ∧ k ≤ 2 ^ 31 - 1

/-- The formula of the operation table, in exact integers (spec/30_encoding.md R41): `x` stands for `a` and `y` for `b`. -/
def tableFormula (i : Instr) (x y : Int) (cin : Bool) : Int :=
  match i with
  | .add => x + y
  | .adc => x + y + cin.toNat
  | .sub => x - y
  | .sbc => x - y - (1 - cin.toNat)
  | .rsb => y - x
  | .rsc => y - x - (1 - cin.toNat)
  | .cmp => x - y

/-- The formula under the unsigned reading. -/
def exactUnsigned (i : Instr) (a b : Word) (cin : Bool) : Int := tableFormula i (uint a) (uint b) cin

/-- The formula under the signed reading. -/
def exactSigned (i : Instr) (a b : Word) (cin : Bool) : Int := tableFormula i (sint a) (sint b) cin

/-- C in exact integers: an unsigned sum that does not fit, or an unsigned difference that is not negative
(spec/40_primitives.md R62). -/
def exactCarry (i : Instr) (a b : Word) (cin : Bool) : Bool :=
  match i with
  | .add | .adc => decide (2 ^ 32 ≤ exactUnsigned i a b cin)
  | .sub | .sbc | .rsb | .rsc | .cmp => decide (0 ≤ exactUnsigned i a b cin)

/-- A response is the exact one of an operation and its operands: the result is the exact value modulo 2^32, N its sign as a
signed value, Z that it is 0, C and V the unsigned and the signed overflow of the exact value
(spec/40_primitives.md R58, R61, R62). -/
def Response.exactFor (t : Response) (i : Instr) (a b : Word) (cin : Bool) : Bool :=
  ((uint t.result : Int) == exactUnsigned i a b cin % 2 ^ 32)
    && (t.n == decide (sint t.result < 0))
    && (t.z == decide (exactUnsigned i a b cin % 2 ^ 32 = 0))
    && (t.c == exactCarry i a b cin)
    && (t.v == !decide (InSigned32 (exactSigned i a b cin)))

/-- The outputs are the exact response to the request now on the inputs; nothing is asked of them while the reserved code is
presented (spec/10_state.md R25, spec/30_encoding.md R43). -/
def State.outputsExact (s : State) : Bool :=
  match decodeOp s.req.op with
  | .ok i => s.resp.exactFor i s.req.a s.req.b s.req.cin
  | .error .reserved => true

/-- The invariant of a safe run: a defined code on the inputs and the exact response on the outputs. -/
def State.Inv (s : State) : Bool := s.Safe && s.outputsExact

end Sys2Proof.Machine
end

