-- ==== Sys2Proof/Certificates/Slice0/Obligations.lean ====
section
/-! DEFINITION. The statements for the provers, and the few predicates they are said in. -/

namespace Sys2Proof.Claims

open Sys2Proof.Machine

/-- Operation `i` with the operands `a`, `b` and the carry-in `cin` ANSWERS A NEXT STATE whatever code and whatever earlier
response the ports carry: the inputs stand unchanged (the frame) and the five outputs are `t`. Every state with these
operands has this form. -/
def Answers (i : Instr) (a b : Word) (cin : Bool) (t : Response) : Prop :=
  ∀ (op : BitVec 3) (old : Response),
    exec i { req := { op := op, a := a, b := b, cin := cin }, resp := old }
      = .next { req := { op := op, a := a, b := b, cin := cin }, resp := t }

/-- Two operations, each with its operands, answer one and the same response. -/
def SameResponse (i : Instr) (a b : Word) (cin : Bool) (j : Instr) (a' b' : Word) (cin' : Bool) : Prop :=
  ∃ t : Response, Answers i a b cin t ∧ Answers j a' b' cin' t

/-- One row of the spec's tables. `nzcv` is the notation of spec/10_state.md R16: four digits in the order n, z, c, v. -/
def Row (i : Instr) (a b : Word) (cin : Bool) (result : Word) (nzcv : BitVec 4) : Prop :=
  Answers i a b cin
    { result := result, n := nzcv.getLsbD 3, z := nzcv.getLsbD 2, c := nzcv.getLsbD 1, v := nzcv.getLsbD 0 }

/-- A row whose `cin` column is `-`: the same for both values of the carry-in. -/
def RowAnyCarry (i : Instr) (a b : Word) (result : Word) (nzcv : BitVec 4) : Prop :=
  ∀ cin : Bool, Row i a b cin result nzcv

/-- The outputs are driven from a primitive's outputs as every operation rule writes it: `result <- r`, `n <- r[31]`,
`z <- (r == 0)`, `c <- co`, `v <- vo`. -/
def DrivenFrom (t : Response) (p : PrimResult) : Prop :=
  t.result = p.r ∧ t.n = p.r.getLsbD 31 ∧ (t.z = true ↔ p.r = 0#32) ∧ t.c = p.co ∧ t.v = p.vo

/-- What the flags mean: N the sign of the result, Z that it is zero, C that `carry` holds, V that the exact signed value lies
outside the 32-bit signed range. -/
def FlagsMean (t : Response) (carry : Prop) (signed : Int) : Prop :=
  (t.n = true ↔ sint t.result < 0) ∧ (t.z = true ↔ t.result = 0#32) ∧ (t.c = true ↔ carry)
    ∧ (t.v = true ↔ ¬ InSigned32 signed)

end Sys2Proof.Claims

open Sys2Proof Sys2Proof.Machine Sys2Proof.Claims

/-! Encoding, decoding and the step. -/

/-- spec/30_encoding.md section 2. The numeric codes are the spec's own choice (its decision D3; log entry 6), and so is the
reserved code (D4; log entry 5). -/
def Obligations.CodesDecodeInTableOrder : Prop :=
  decodeOp 0b000#3 = .ok .add ∧ decodeOp 0b001#3 = .ok .adc ∧ decodeOp 0b010#3 = .ok .sub ∧ decodeOp 0b011#3 = .ok .sbc
    ∧ decodeOp 0b100#3 = .ok .rsb ∧ decodeOp 0b101#3 = .ok .rsc ∧ decodeOp 0b110#3 = .ok .cmp
    ∧ decodeOp 0b111#3 = .error .reserved

/-- Decode and encode agree in both directions, and a table word of any length decodes by its three low bits alone. That a
longer word reaches the port with its three low bits is the model's choice (log entry 11). -/
def Obligations.DecodeAndEncodeAgree : Prop :=
  (∀ i : Instr, decodeOp (encode i) = .ok i ∧ ∀ nbits : Nat, 3 ≤ nbits → decodeTableWord nbits (encode i).toNat = some i)
    ∧ (∀ (op : BitVec 3) (i : Instr), decodeOp op = .ok i → encode i = op)
    ∧ (∀ (nbits w : Nat) (i : Instr), 3 ≤ nbits → (decodeTableWord nbits w = some i ↔ w % 8 = (encode i).toNat))

/-- spec/30_encoding.md section 4: "A model treats it as a refusal". The reserved code is the spec's decision D4 (log entry 5). -/
def Obligations.ReservedCodeAloneIsRefused : Prop :=
  ∀ s : State, (step s = .refused .reservedOperation ↔ s.req.op = 0b111#3)
    ∧ (s.req.op ≠ 0b111#3 → ∃ t : State, step s = .next t)

/-- A step runs the operation that the `op` port selects, with nothing around it. -/
def Obligations.StepRunsSelectedOperation : Prop :=
  ∀ (s : State) (i : Instr), decodeOp s.req.op = .ok i → step s = exec i s

/-- A table word driven onto the port runs in the very next step on the operands that stand on the ports
(log entries 11 and 12). -/
def Obligations.TableWordIsTheNextEvaluation : Prop :=
  ∀ (s : State) (nbits w : Nat) (i : Instr), decodeTableWord nbits w = some i →
    s.withFetchWord nbits w = { req := { s.req with op := encode i }, resp := s.resp }
      ∧ step (s.withFetchWord nbits w) = exec i (s.withFetchWord nbits w)

/-- spec/30_encoding.md R42: which primitive each operation calls, with which operands and which third argument, and the flag
packing that follows. -/
def Obligations.WiringOntoThePrimitives : Prop :=
  ∀ (a b : Word) (cin : Bool),
    (∃ t, Answers .add a b cin t ∧ DrivenFrom t (addWithCarry a b false))
      ∧ (∃ t, Answers .adc a b cin t ∧ DrivenFrom t (addWithCarry a b cin))
      ∧ (∃ t, Answers .sub a b cin t ∧ DrivenFrom t (subWithBorrow a b false))
      ∧ (∃ t, Answers .sbc a b cin t ∧ DrivenFrom t (subWithBorrow a b (!cin)))
      ∧ (∃ t, Answers .rsb a b cin t ∧ DrivenFrom t (subWithBorrow b a false))
      ∧ (∃ t, Answers .rsc a b cin t ∧ DrivenFrom t (subWithBorrow b a (!cin)))
      ∧ (∃ t, Answers .cmp a b cin t ∧ DrivenFrom t (subWithBorrow a b false))

/-! The primitives and the flags. -/

/-- spec/40_primitives.md R50 to R53, but for the clauses those rules mark as derived, which are in
`PrimitivesLoseNothing`. -/
def Obligations.AddPrimitiveSumCarryOverflow : Prop :=
  (∀ (x y : Word) (ci : Bool),
    (sum33 x y ci).toNat = uint x + uint y + ci.toNat
      ∧ (addWithCarry x y ci).r = trunc32 ((uint x : Int) + uint y + ci.toNat)
      ∧ (addWithCarry x y ci).r = (sum33 x y ci).extractLsb' 0 32
      ∧ ((addWithCarry x y ci).co = true ↔ uint x + uint y + ci.toNat > 2 ^ 32 - 1)
      ∧ (addWithCarry x y ci).vo = (~~~(x ^^^ y) &&& (x ^^^ (addWithCarry x y ci).r)).getLsbD 31
      ∧ ((addWithCarry x y ci).vo = true ↔
          x.getLsbD 31 = y.getLsbD 31 ∧ (addWithCarry x y ci).r.getLsbD 31 ≠ x.getLsbD 31))
    ∧ addWithCarry 0x7FFFFFFF#32 0x00000000#32 true = { r := 0x80000000#32, co := false, vo := true }

/-- spec/40_primitives.md R54 to R57, but for the clauses those rules mark as derived, which are in
`PrimitivesLoseNothing`. -/
def Obligations.SubPrimitiveDifferenceBorrowOverflow : Prop :=
  ∀ (x y : Word) (bi : Bool),
    exactDiff x y bi = (uint x : Int) - uint y - bi.toNat
      ∧ (subWithBorrow x y bi).r = trunc32 (exactDiff x y bi)
      ∧ (exactDiff x y bi < 0 → (uint (subWithBorrow x y bi).r : Int) = exactDiff x y bi + 2 ^ 32)
      ∧ ((subWithBorrow x y bi).co = true ↔ 0 ≤ exactDiff x y bi)
      ∧ (subWithBorrow x y bi).vo = ((x ^^^ y) &&& (x ^^^ (subWithBorrow x y bi).r)).getLsbD 31
      ∧ ((subWithBorrow x y bi).vo = true ↔
          x.getLsbD 31 ≠ y.getLsbD 31 ∧ (subWithBorrow x y bi).r.getLsbD 31 ≠ x.getLsbD 31)

/-- The spec's own inferences from R50, R52, R54, R56 and R58 ("[derived: ...]"): 33 bits hold every sum and every
difference, carry-out and result together are the exact value, N and Z are never both 1. -/
def Obligations.PrimitivesLoseNothing : Prop :=
  ∀ (x y : Word) (k : Bool),
    uint x + uint y + k.toNat ≤ 2 ^ 33 - 1
      ∧ (addWithCarry x y k).co = (sum33 x y k).getLsbD 32
      ∧ uint x + uint y + k.toNat = 2 ^ 32 * (addWithCarry x y k).co.toNat + uint (addWithCarry x y k).r
      ∧ -(2 ^ 32) ≤ exactDiff x y k ∧ exactDiff x y k ≤ 2 ^ 32 - 1
      ∧ exactDiff x y k
          = (uint (subWithBorrow x y k).r : Int) - 2 ^ 32 * (1 - ((subWithBorrow x y k).co.toNat : Int))
      ∧ ∀ p : PrimResult, ¬ ((packFlags p).n = true ∧ (packFlags p).z = true)

/-- spec/40_primitives.md R58 and R59. -/
def Obligations.FlagsComeFromTruncatedResult : Prop :=
  (∀ p : PrimResult,
    (packFlags p).n = p.r.getLsbD 31 ∧ ((packFlags p).n = true ↔ sint (packFlags p).result < 0)
      ∧ ((packFlags p).z = true ↔ ∀ k : Nat, k < 32 → (packFlags p).result.getLsbD k = false)
      ∧ (packFlags p).result = p.r ∧ (packFlags p).c = p.co ∧ (packFlags p).v = p.vo)
    ∧ (sum33 0xFFFFFFFF#32 0x00000001#32 false).toNat = 2 ^ 32
    ∧ (packFlags (addWithCarry 0xFFFFFFFF#32 0x00000001#32 false)).z = true

/-- Section 4 of spec/40_primitives.md, the spec's own inference: subtraction is complement and add, and how the five
subtract operations then read. -/
def Obligations.SubtractionIsComplementAndAdd : Prop :=
  (∀ (x y : Word) (bi : Bool), subWithBorrow x y bi = addWithCarry x (~~~y) (!bi))
    ∧ ∀ (a b : Word) (cin : Bool),
      (∃ t, Answers .sub a b cin t ∧ Answers .cmp a b cin t ∧ DrivenFrom t (addWithCarry a (~~~b) true))
        ∧ (∃ t, Answers .sbc a b cin t ∧ DrivenFrom t (addWithCarry a (~~~b) cin))
        ∧ (∃ t, Answers .rsb a b cin t ∧ DrivenFrom t (addWithCarry b (~~~a) true))
        ∧ (∃ t, Answers .rsc a b cin t ∧ DrivenFrom t (addWithCarry b (~~~a) cin))

/-- Section 5 of spec/40_primitives.md, the spec's own inference on V: it is signed overflow of the exact value, and an
overflowed result is off by exactly 2^32, down for a positive overflow and up for a negative one. -/
def Obligations.OverflowFlagIsSignedOverflow : Prop :=
  ∀ (x y : Word) (k : Bool),
    let sum : Int := sint x + sint y + k.toNat
    let diff : Int := sint x - sint y - k.toNat
    (((addWithCarry x y k).vo = true ↔ ¬ InSigned32 sum)
      ∧ ((addWithCarry x y k).vo = false → sint (addWithCarry x y k).r = sum)
      ∧ (2 ^ 31 - 1 < sum → sint (addWithCarry x y k).r = sum - 2 ^ 32)
      ∧ (sum < -(2 ^ 31) → sint (addWithCarry x y k).r = sum + 2 ^ 32))
    ∧ (((subWithBorrow x y k).vo = true ↔ ¬ InSigned32 diff)
      ∧ ((subWithBorrow x y k).vo = false → sint (subWithBorrow x y k).r = diff)
      ∧ (2 ^ 31 - 1 < diff → sint (subWithBorrow x y k).r = diff - 2 ^ 32)
      ∧ (diff < -(2 ^ 31) → sint (subWithBorrow x y k).r = diff + 2 ^ 32))

/-- Section 5 of spec/40_primitives.md, the spec's own inference on C, said of the operations: an unsigned sum that does not
fit, an unsigned difference that needs no borrow; without a borrow-in, the unsigned comparison. -/
def Obligations.CarryFlagIsUnsignedOverflow : Prop :=
  ∀ (a b : Word) (cin : Bool),
    (∃ t, Answers .add a b cin t ∧ (t.c = true ↔ 2 ^ 32 ≤ uint a + uint b))
      ∧ (∃ t, Answers .adc a b cin t ∧ (t.c = true ↔ 2 ^ 32 ≤ uint a + uint b + cin.toNat))
      ∧ (∃ t, Answers .sub a b cin t ∧ Answers .cmp a b cin t ∧ (t.c = false ↔ uint a < uint b))
      ∧ (∃ t, Answers .sbc a b cin t ∧ (t.c = true ↔ uint b + (!cin).toNat ≤ uint a))
      ∧ (∃ t, Answers .rsb a b cin t ∧ (t.c = false ↔ uint b < uint a))
      ∧ (∃ t, Answers .rsc a b cin t ∧ (t.c = true ↔ uint a + (!cin).toNat ≤ uint b))

/-- Section 5 of spec/40_primitives.md, the spec's own inference on the carry chain: V is the carry into bit 31 against the
carry out of it, for both primitives. -/
def Obligations.OverflowIsCarryInXorCarryOut : Prop :=
  ∀ (x y : Word) (k : Bool),
    (addWithCarry x y k).vo = (carryInto31 x y k ^^ (addWithCarry x y k).co)
      ∧ (subWithBorrow x y k).vo = (carryInto31 x (~~~y) (!k) ^^ (subWithBorrow x y k).co)

/-- Section 5 of spec/40_primitives.md, the spec's own inference on what a caller reads off the flags of SUB, CMP, and RSB with
its operands exchanged. -/
def Obligations.FlagsOrderTheOperands : Prop :=
  ∀ (x y : Word) (cin : Bool), ∃ t : Response,
    Answers .sub x y cin t ∧ Answers .cmp x y cin t ∧ Answers .rsb y x cin t
      ∧ (t.z = true ↔ x = y) ∧ (t.c = true ↔ uint y ≤ uint x) ∧ ((t.n ^^ t.v) = true ↔ sint x < sint y)

/-- Section 6 of spec/40_primitives.md and the control equations of spec/30_encoding.md section 5, the spec's decision D11 and
its own inference: one adder with an operand swap and an inverter has the truth table of the two primitives. -/
def Obligations.OneAdderServesAllSeven : Prop :=
  (∀ i : Instr, usecOf i = (encode i).getLsbD 0
      ∧ subOf i = ((encode i).getLsbD 2 || (encode i).getLsbD 1)
      ∧ swapOf i = ((encode i).getLsbD 2 && !(encode i).getLsbD 1))
    ∧ ∀ (i : Instr) (a b : Word) (cin : Bool),
      Answers i a b cin (datapath i a b cin) ∧ datapath i a b cin = eval i a b cin

/-! The seven operation rules, each whole: encoding, operation, integer form, flags, corner cases, example. -/

/-- spec/41_add_adc.md R70. The code in the first clause is the spec's decision D3 (log entry 6). -/
def Obligations.AddAnswersSum : Prop :=
  decodeOp 0b000#3 = .ok .add
    ∧ (∀ a b : Word, ∃ t : Response, (∀ cin : Bool, Answers .add a b cin t)
        ∧ DrivenFrom t (addWithCarry a b false)
        ∧ uint t.result = (uint a + uint b) % 2 ^ 32
        ∧ FlagsMean t (2 ^ 32 ≤ uint a + uint b) (sint a + sint b))
    ∧ (∀ a b : Word, ∀ cin cin' : Bool, SameResponse .add a b cin .add b a cin')
    ∧ (∀ (a : Word) (cin : Bool), ∃ t : Response,
        Answers .add a 0#32 cin t ∧ t.result = a ∧ t.c = false ∧ t.v = false)
    ∧ RowAnyCarry .add 0x00000000#32 0x00000000#32 0x00000000#32 0b0100#4
    ∧ RowAnyCarry .add 0xFFFFFFFF#32 0x00000001#32 0x00000000#32 0b0110#4
    ∧ RowAnyCarry .add 0x7FFFFFFF#32 0x00000001#32 0x80000000#32 0b1001#4
    ∧ RowAnyCarry .add 0x80000000#32 0x80000000#32 0x00000000#32 0b0111#4
    ∧ RowAnyCarry .add 0xDEADBEEF#32 0xDEADBEEF#32 0xBD5B7DDE#32 0b1010#4

/-- spec/41_add_adc.md R71. The code in the first clause is the spec's decision D3 (log entry 6). -/
def Obligations.AdcAnswersSumWithCarry : Prop :=
  decodeOp 0b001#3 = .ok .adc
    ∧ (∀ (a b : Word) (cin : Bool), ∃ t : Response, Answers .adc a b cin t
        ∧ DrivenFrom t (addWithCarry a b cin)
        ∧ uint t.result = (uint a + uint b + cin.toNat) % 2 ^ 32
        ∧ FlagsMean t (2 ^ 32 ≤ uint a + uint b + cin.toNat) (sint a + sint b + cin.toNat))
    ∧ (∀ (a b : Word) (cin : Bool), SameResponse .adc a b false .add a b cin)
    ∧ Row .adc 0xFFFFFFFF#32 0xFFFFFFFF#32 true 0xFFFFFFFF#32 0b1010#4
    ∧ Row .adc 0xFFFFFFFF#32 0x00000000#32 true 0x00000000#32 0b0110#4
    ∧ Row .adc 0x7FFFFFFF#32 0x00000000#32 true 0x80000000#32 0b1001#4
    ∧ Row .adc 0x80000000#32 0xFFFFFFFF#32 true 0x80000000#32 0b1010#4
    ∧ RowAnyCarry .add 0x80000000#32 0xFFFFFFFF#32 0x7FFFFFFF#32 0b0011#4
    ∧ Row .adc 0x80000000#32 0x7FFFFFFF#32 true 0x00000000#32 0b0110#4
    ∧ Row .adc 0xFFFFFFFF#32 0x00000001#32 false 0x00000000#32 0b0110#4

/-- spec/42_sub_sbc.md R75. The code in the first clause is the spec's decision D3 (log entry 6). -/
def Obligations.SubAnswersDifference : Prop :=
  decodeOp 0b010#3 = .ok .sub
    ∧ (∀ a b : Word, ∃ t : Response, (∀ cin : Bool, Answers .sub a b cin t)
        ∧ DrivenFrom t (subWithBorrow a b false)
        ∧ DrivenFrom t (addWithCarry a (~~~b) true)
        ∧ (uint t.result : Int) = ((uint a : Int) - uint b) % 2 ^ 32
        ∧ FlagsMean t (uint b ≤ uint a) (sint a - sint b)
        ∧ (t.z = true ↔ a = b) ∧ (t.c = false ↔ uint a < uint b)
        ∧ (t.v = true → a.getLsbD 31 ≠ b.getLsbD 31))
    ∧ (∀ a : Word, RowAnyCarry .sub a a 0x00000000#32 0b0110#4)
    ∧ (∀ (a : Word) (cin : Bool), ∃ t : Response,
        Answers .sub a 0#32 cin t ∧ t.result = a ∧ t.c = true ∧ t.v = false)
    ∧ (∀ (a b : Word) (cin cin' : Bool), SameResponse .sub a b cin .rsb b a cin')
    ∧ (∃ a b : Word, ¬ SameResponse .sub a b false .sub b a false)
    ∧ RowAnyCarry .sub 0x00000000#32 0x00000000#32 0x00000000#32 0b0110#4
    ∧ RowAnyCarry .sub 0x00000000#32 0x00000001#32 0xFFFFFFFF#32 0b1000#4
    ∧ RowAnyCarry .sub 0x00000000#32 0xFFFFFFFF#32 0x00000001#32 0b0000#4
    ∧ RowAnyCarry .sub 0x80000000#32 0x00000001#32 0x7FFFFFFF#32 0b0011#4
    ∧ RowAnyCarry .sub 0x7FFFFFFF#32 0xFFFFFFFF#32 0x80000000#32 0b1001#4
    ∧ RowAnyCarry .sub 0x00000000#32 0x80000000#32 0x80000000#32 0b1001#4
    ∧ RowAnyCarry .sub 0x80000000#32 0x80000000#32 0x00000000#32 0b0110#4
    ∧ RowAnyCarry .sub 0x80000000#32 0x7FFFFFFF#32 0x00000001#32 0b0011#4

/-- spec/42_sub_sbc.md R76. The code in the first clause is the spec's decision D3 (log entry 6). -/
def Obligations.SbcAnswersDifferenceWithBorrow : Prop :=
  decodeOp 0b011#3 = .ok .sbc
    ∧ (∀ (a b : Word) (cin : Bool), ∃ t : Response, Answers .sbc a b cin t
        ∧ DrivenFrom t (subWithBorrow a b (!cin))
        ∧ DrivenFrom t (addWithCarry a (~~~b) cin)
        ∧ (uint t.result : Int) = ((uint a : Int) - uint b - 1 + cin.toNat) % 2 ^ 32
        ∧ FlagsMean t (uint b + (!cin).toNat ≤ uint a) (sint a - sint b - (!cin).toNat)
        ∧ (cin = false → (t.z = true ↔ a - b = 1#32)))
    ∧ (∀ (a b : Word) (cin : Bool), SameResponse .sbc a b true .sub a b cin)
    ∧ Row .sbc 0x00000000#32 0x00000000#32 false 0xFFFFFFFF#32 0b1000#4
    ∧ Row .sbc 0x00000001#32 0x00000000#32 false 0x00000000#32 0b0110#4
    ∧ Row .sbc 0x00000005#32 0x00000005#32 false 0xFFFFFFFF#32 0b1000#4
    ∧ Row .sbc 0x00000000#32 0xFFFFFFFF#32 false 0x00000000#32 0b0100#4
    ∧ (∀ (a b : Word) (cin : Bool), ∃ t : Response, Answers .sub a b cin t ∧ ¬ (t.z = true ∧ t.c = false))
    ∧ Row .sbc 0x80000000#32 0x00000000#32 false 0x7FFFFFFF#32 0b0011#4
    ∧ Row .sbc 0x7FFFFFFF#32 0xFFFFFFFF#32 false 0x7FFFFFFF#32 0b0000#4
    ∧ RowAnyCarry .sub 0x7FFFFFFF#32 0xFFFFFFFF#32 0x80000000#32 0b1001#4
    ∧ Row .sbc 0x80000000#32 0x7FFFFFFF#32 false 0x00000000#32 0b0111#4
    ∧ Row .sbc 0x0000000A#32 0x00000003#32 true 0x00000007#32 0b0010#4
    ∧ Row .sbc 0x0000000A#32 0x00000003#32 false 0x00000006#32 0b0010#4

/-- spec/43_rsb_rsc.md R80. The code in the first clause is the spec's decision D3 (log entry 6). -/
def Obligations.RsbAnswersReversedDifference : Prop :=
  decodeOp 0b100#3 = .ok .rsb
    ∧ (∀ a b : Word, ∃ t : Response, (∀ cin : Bool, Answers .rsb a b cin t)
        ∧ DrivenFrom t (subWithBorrow b a false)
        ∧ DrivenFrom t (addWithCarry b (~~~a) true)
        ∧ (uint t.result : Int) = ((uint b : Int) - uint a) % 2 ^ 32
        ∧ FlagsMean t (uint a ≤ uint b) (sint b - sint a)
        ∧ (t.z = true ↔ a = b)
        ∧ t.v = ((b ^^^ a) &&& (b ^^^ t.result)).getLsbD 31)
    ∧ (∀ (a : Word) (cin : Bool), ∃ t : Response, Answers .rsb a 0#32 cin t
        ∧ t.result = trunc32 (-(sint a)) ∧ (t.c = true ↔ a = 0#32) ∧ (t.v = true ↔ a = 0x80000000#32))
    ∧ RowAnyCarry .rsb 0x00000000#32 0x00000000#32 0x00000000#32 0b0110#4
    ∧ RowAnyCarry .rsb 0x00000001#32 0x00000000#32 0xFFFFFFFF#32 0b1000#4
    ∧ RowAnyCarry .rsb 0xFFFFFFFF#32 0x00000000#32 0x00000001#32 0b0000#4
    ∧ RowAnyCarry .rsb 0x80000000#32 0x00000000#32 0x80000000#32 0b1001#4
    ∧ RowAnyCarry .rsb 0x0000000A#32 0x00000003#32 0xFFFFFFF9#32 0b1000#4
    ∧ RowAnyCarry .rsb 0x00000003#32 0x0000000A#32 0x00000007#32 0b0010#4
    ∧ RowAnyCarry .rsb 0x7FFFFFFF#32 0x80000000#32 0x00000001#32 0b0011#4
    ∧ RowAnyCarry .rsb 0x7FFFFFFF#32 0xFFFFFFFF#32 0x80000000#32 0b1010#4
    ∧ RowAnyCarry .rsb 0x80000000#32 0x00000001#32 0x80000001#32 0b1001#4

/-- spec/43_rsb_rsc.md R81. The code in the first clause is the spec's decision D3 (log entry 6). -/
def Obligations.RscAnswersReversedDifferenceWithBorrow : Prop :=
  decodeOp 0b101#3 = .ok .rsc
    ∧ (∀ (a b : Word) (cin : Bool), ∃ t : Response, Answers .rsc a b cin t
        ∧ DrivenFrom t (subWithBorrow b a (!cin))
        ∧ DrivenFrom t (addWithCarry b (~~~a) cin)
        ∧ (uint t.result : Int) = ((uint b : Int) - uint a - 1 + cin.toNat) % 2 ^ 32
        ∧ FlagsMean t (uint a + (!cin).toNat ≤ uint b) (sint b - sint a - (!cin).toNat))
    ∧ (∀ (a b : Word) (cin : Bool), SameResponse .rsc a b true .rsb a b cin)
    ∧ Row .rsc 0x00000000#32 0x00000000#32 false 0xFFFFFFFF#32 0b1000#4
    ∧ Row .rsc 0x00000000#32 0x00000001#32 false 0x00000000#32 0b0110#4
    ∧ Row .rsc 0x0000000A#32 0x00000003#32 false 0xFFFFFFF8#32 0b1000#4
    ∧ Row .rsc 0x00000003#32 0x0000000A#32 false 0x00000006#32 0b0010#4
    ∧ Row .rsc 0xFFFFFFFF#32 0x00000000#32 false 0x00000000#32 0b0100#4
    ∧ Row .rsc 0x80000000#32 0x00000000#32 false 0x7FFFFFFF#32 0b0000#4
    ∧ RowAnyCarry .rsb 0x80000000#32 0x00000000#32 0x80000000#32 0b1001#4
    ∧ Row .rsc 0x80000000#32 0x00000001#32 false 0x80000000#32 0b1001#4
    ∧ Row .rsc 0x7FFFFFFF#32 0x80000000#32 false 0x00000000#32 0b0111#4
    ∧ Row .rsc 0x7FFFFFFF#32 0xFFFFFFFF#32 false 0x7FFFFFFF#32 0b0011#4
    ∧ Row .rsc 0x00000003#32 0x0000000A#32 true 0x00000007#32 0b0010#4

/-- spec/44_cmp.md R85. The code in the first clause is the spec's decision D3 (log entry 6). -/
def Obligations.CmpAnswersComparison : Prop :=
  decodeOp 0b110#3 = .ok .cmp
    ∧ (∀ a b : Word, ∃ t : Response, (∀ cin : Bool, Answers .cmp a b cin t)
        ∧ (∀ cin : Bool, Answers .sub a b cin t)
        ∧ DrivenFrom t (subWithBorrow a b false)
        ∧ DrivenFrom t (addWithCarry a (~~~b) true)
        ∧ (uint t.result : Int) = ((uint a : Int) - uint b) % 2 ^ 32
        ∧ (t.n = true ↔ sint t.result < 0)
        ∧ (t.z = true ↔ a = b) ∧ (t.c = true ↔ uint b ≤ uint a) ∧ ((t.n ^^ t.v) = true ↔ sint a < sint b))
    ∧ (∀ a : Word, RowAnyCarry .cmp a a 0x00000000#32 0b0110#4)
    ∧ RowAnyCarry .cmp 0x00000000#32 0x00000001#32 0xFFFFFFFF#32 0b1000#4
    ∧ RowAnyCarry .cmp 0xFFFFFFFF#32 0x00000000#32 0xFFFFFFFF#32 0b1010#4
    ∧ RowAnyCarry .cmp 0x7FFFFFFF#32 0x80000000#32 0xFFFFFFFF#32 0b1001#4
    ∧ RowAnyCarry .cmp 0x80000000#32 0x00000001#32 0x7FFFFFFF#32 0b0011#4
    ∧ RowAnyCarry .cmp 0x0000000A#32 0x00000003#32 0x00000007#32 0b0010#4

/-! The laws between operations. -/

/-- spec/41_add_adc.md R72, and by commutativity with the zero as the first operand. -/
def Obligations.AddingZeroReturnsTheOperand : Prop :=
  ∀ (a : Word) (cin : Bool), ∃ t : Response, Answers .add a 0x00000000#32 cin t ∧ Answers .add 0x00000000#32 a cin t
    ∧ t = { result := a, n := a.getLsbD 31, z := a == 0#32, c := false, v := false }
    ∧ (t.n = true ↔ sint a < 0)

/-- Section of spec/41_add_adc.md on the laws of the add pair, the spec's own inference. -/
def Obligations.AddPairCommutesAndAgrees : Prop :=
  ∀ (a b : Word) (cin cin' : Bool), SameResponse .adc a b false .add a b cin
    ∧ SameResponse .add a b cin .add b a cin' ∧ SameResponse .adc a b cin .adc b a cin

/-- spec/41_add_adc.md on ADC with carry-in 1 against two ADDs, the spec's own inference: the caller feeds the first result back
as the next first operand; the results agree, the flags in general do not. -/
def Obligations.AdcResultIsTwoAddsButFlagsDiffer : Prop :=
  (∀ (s : State) (a b : Word) (cin : Bool), ∃ t u v : State,
    step (s.present { op := 0b001#3, a := a, b := b, cin := true }) = .next t
      ∧ step (s.present { op := 0b000#3, a := a, b := b, cin := cin }) = .next u
      ∧ step (u.chainResult 0b000#3 0x00000001#32) = .next v
      ∧ t.resp.result = v.resp.result)
    ∧ Row .adc 0x80000000#32 0xFFFFFFFF#32 true 0x80000000#32 0b1010#4
    ∧ RowAnyCarry .add 0x80000000#32 0xFFFFFFFF#32 0x7FFFFFFF#32 0b0011#4
    ∧ RowAnyCarry .add 0x7FFFFFFF#32 0x00000001#32 0x80000000#32 0b1001#4

/-- spec/42_sub_sbc.md R77. -/
def Obligations.SbcWithCarrySetIsSub : Prop :=
  (∀ (a b : Word) (cin : Bool), ∃ t : Response, Answers .sbc a b true t ∧ Answers .sub a b cin t
      ∧ DrivenFrom t (subWithBorrow a b false))
    ∧ Row .sbc 0x0000000A#32 0x00000003#32 true 0x00000007#32 0b0010#4
    ∧ RowAnyCarry .sub 0x0000000A#32 0x00000003#32 0x00000007#32 0b0010#4

/-- spec/42_sub_sbc.md on SUB of a value from itself and of zero, the spec's own inference: subtracting zero and adding zero
differ in C only. -/
def Obligations.SubtractingItselfAndZero : Prop :=
  ∀ (a : Word) (cin : Bool),
    Answers .sub a a cin { result := 0#32, n := false, z := true, c := true, v := false }
      ∧ ∃ t : Response, Answers .sub a 0x00000000#32 cin t
        ∧ t = { result := a, n := a.getLsbD 31, z := a == 0#32, c := true, v := false }
        ∧ Answers .add a 0x00000000#32 cin { t with c := false }

/-- spec/43_rsb_rsc.md on the exchange of operands: SUB against RSB in the document's own words, SBC against RSC by the spec's own
inference from the wiring (spec/30_encoding.md section 3). -/
def Obligations.ReverseSubtractExchangesOperands : Prop :=
  ∀ (p q : Word) (cin cin' : Bool),
    (∃ t : Response, Answers .sub p q cin t ∧ Answers .rsb q p cin' t ∧ DrivenFrom t (subWithBorrow p q false))
      ∧ (∃ t : Response, Answers .sbc p q cin t ∧ Answers .rsc q p cin t ∧ DrivenFrom t (subWithBorrow p q (!cin)))

/-- spec/43_rsb_rsc.md on RSC with the carry set, the spec's own inference. -/
def Obligations.RscWithCarrySetIsRsb : Prop :=
  ∀ (a b : Word) (cin : Bool), ∃ t : Response, Answers .rsc a b true t ∧ Answers .rsb a b cin t
    ∧ DrivenFrom t (subWithBorrow b a false)

/-- spec/44_cmp.md R86: compare and subtract answer alike on all five outputs, and stay two operations with two codes. -/
def Obligations.CompareIsSubtract : Prop :=
  (∀ (a b : Word) (cin cin' : Bool), SameResponse .cmp a b cin .sub a b cin')
    ∧ Instr.cmp ≠ Instr.sub ∧ encode .cmp ≠ encode .sub

/-! Statelessness, the frame, totality. -/

/-- A carry-less operation answers the same for both carry-ins (spec/10_state.md section 1). A with-carry one never does: that
its result moves by one with the carry-in is arithmetic on the wiring (spec/30_encoding.md section 3), said by no rule. -/
def Obligations.CarryInMattersToWithCarryVariantsOnly : Prop :=
  ∀ (i : Instr) (a b : Word),
    (i = .add ∨ i = .sub ∨ i = .rsb ∨ i = .cmp → SameResponse i a b false i a b true)
      ∧ (i = .adc ∨ i = .sbc ∨ i = .rsc → ∃ t u : Response,
          Answers i a b false t ∧ Answers i a b true u ∧ u.result = t.result + 1#32 ∧ t.result ≠ u.result)

/-- spec/10_state.md R22: the step is a function of the request alone, whatever was answered before, and evaluating the same
request again changes nothing. -/
def Obligations.ResponseHasNoHistory : Prop :=
  (∀ s s' : State, s.req = s'.req → step s = step s') ∧ (∀ s t : State, step s = .next t → step t = .next t)

/-- spec/20_memory.md R35: a request is answered alike whatever other requests were answered before it, so any two evaluations
commute. -/
def Obligations.EvaluationsCommute : Prop :=
  (∀ (s t : State) (p q : Request), step (s.present p) = .next t → step (t.present q) = step (s.present q))
    ∧ ∀ (s : State) (p q : Request), p.wellFormed = true → q.wellFormed = true → ∃ sp sq spq sqp : State,
      step (s.present p) = .next sp ∧ step (sp.present q) = .next spq
        ∧ step (s.present q) = .next sq ∧ step (sq.present p) = .next sqp
        ∧ spq.resp = sq.resp ∧ sqp.resp = sp.resp

/-- spec/10_state.md R14: an operation answers with a whole response and leaves every input port as it was. The response is
one value for the operation, its operands and its carry-in: no code, no earlier response enters it. -/
def Obligations.InputPortsStayAsDriven : Prop :=
  ∀ (i : Instr) (a b : Word) (cin : Bool), ∃ t : Response, Answers i a b cin t

/-- spec/40_primitives.md R63 and spec/60_exceptions.md R90: every operation answers on every operands, and no step faults. -/
def Obligations.EveryOperationAnswersAndNoStepFaults : Prop :=
  (∀ (i : Instr) (s : State), ∃ t : State, exec i s = .next t)
    ∧ ∀ (s : State) (f : Fault), step s ≠ .fault f

/-! The caller's boundary. -/

/-- spec/10_state.md section 1 on input normalisation, rendered at the port by the spec's decision D6: wider integers that agree
modulo 2^32 are one operand, and the block then answers as the operation table's formula does for the integers themselves. -/
def Obligations.WiderOperandsAreReduced : Prop :=
  (∀ k m : Int, trunc32 (k + 2 ^ 32 * m) = trunc32 k ∧ InSigned32 (norm32 k) ∧ (InSigned32 k → norm32 k = k)
      ∧ (norm32 k - k) % 2 ^ 32 = 0)
    ∧ ∀ (s : State) (i : Instr) (k l : Int) (cin : Bool), ∃ t : State,
      step (s.presentInts (encode i) k l cin) = .next t ∧ t.resp.result = trunc32 (tableFormula i k l cin)

/-- A 64-bit sum, difference and reversed difference in two evaluations, the second fed the carry of the first by the caller
(spec/10_state.md section 4, spec/70_reset_and_hazards.md section 2). It holds for every carry-in `c0` of the first, which is the
caller's open parameter (log entry 8). -/
def Obligations.CallersCarryChainsToSixtyFourBits : Prop :=
  ∀ (s : State) (al ah bl bh : Word) (c0 : Bool),
    (∃ t u : State, step (s.present { op := encode .add, a := al, b := bl, cin := c0 }) = .next t
      ∧ step (t.chain (encode .adc) ah bh) = .next u
      ∧ 2 ^ 64 * u.resp.c.toNat + 2 ^ 32 * uint u.resp.result + uint t.resp.result
          = (2 ^ 32 * uint ah + uint al) + (2 ^ 32 * uint bh + uint bl))
    ∧ (∃ t u : State, step (s.present { op := encode .sub, a := al, b := bl, cin := c0 }) = .next t
      ∧ step (t.chain (encode .sbc) ah bh) = .next u
      ∧ 2 ^ 32 * (uint u.resp.result : Int) + uint t.resp.result - 2 ^ 64 * (!u.resp.c).toNat
          = (2 ^ 32 * (uint ah : Int) + uint al) - (2 ^ 32 * (uint bh : Int) + uint bl))
    ∧ (∃ t u : State, step (s.present { op := encode .rsb, a := al, b := bl, cin := c0 }) = .next t
      ∧ step (t.chain (encode .rsc) ah bh) = .next u
      ∧ 2 ^ 32 * (uint u.resp.result : Int) + uint t.resp.result - 2 ^ 64 * (!u.resp.c).toNat
          = (2 ^ 32 * (uint bh : Int) + uint bl) - (2 ^ 32 * (uint ah : Int) + uint al))

/-! Reset and the invariant. -/

/-- What reset leaves: the port levels of the model's choice (log entries 3 and 4), settled, so that a step changes nothing. -/
def Obligations.ResetIsSettled : Prop :=
  State.reset.Inv = true ∧ step State.reset = .next State.reset
    ∧ State.reset = { req := { op := 0b000#3, a := 0#32, b := 0#32, cin := false }
                      resp := { result := 0#32, n := false, z := true, c := false, v := false } }

/-- A safe request is answered, its inputs stay, and the outputs become exact whatever stood on them before
(spec/10_state.md section 5: "the outputs are the function of those inputs"). -/
def Obligations.SafeRequestIsAnsweredExactly : Prop :=
  ∀ s : State, s.Safe = true →
    ∃ t : State, step s = .next t ∧ t.req = s.req ∧ t.Safe = true ∧ t.outputsExact = true

/-- Every step keeps the invariant of a safe run: a defined code on the inputs, and on the outputs the response that exact
integer arithmetic gives for the request on the inputs. -/
def Obligations.EveryStepKeepsTheOutputsExact : Prop :=
  ∀ s t : State, s.Inv = true → step s = .next t → t.Inv = true
end

