-- ==== Sys2Proof/Laws/Decode.lean ====
section
/-! SUPPORT. The decoder and the encoder in one statement each. -/

namespace Sys2Proof

@[simp] theorem decodeOp_encode (i : Instr) : decodeOp (encode i) = .ok i := by
  cases i <;> rfl

/-- The decoder accepts a code exactly when it is the operation's own. -/
theorem decodeOp_ok_iff (op : BitVec 3) (i : Instr) : decodeOp op = .ok i ↔ op = encode i := by
  constructor
  · intro h
    unfold decodeOp at h
    apply BitVec.eq_of_toNat_eq
    split at h <;> cases h <;> rename_i k <;> rw [k] <;> rfl
  · rintro rfl
    exact decodeOp_encode i

/-- The decoder refuses the reserved code and nothing else. -/
theorem decodeOp_error_iff (op : BitVec 3) : decodeOp op = .error .reserved ↔ op = Config.reservedCode := by
  revert op
  have h : ∀ f : Fin 8, decodeOp (BitVec.ofFin f) = .error .reserved ↔ BitVec.ofFin f = Config.reservedCode := by
    intro f
    fin_cases f <;> simp [decodeOp, Config.reservedCode]
  exact fun op => h op.toFin

/-- Decoding answers an operation with its own code, or refuses the reserved code. -/
theorem decodeOp_cases (op : BitVec 3) :
    (∃ i, decodeOp op = .ok i ∧ op = encode i) ∨ (decodeOp op = .error .reserved ∧ op = Config.reservedCode) := by
  rcases h : decodeOp op with e | i
  · cases e
    exact .inr ⟨rfl, (decodeOp_error_iff op).mp h⟩
  · exact .inl ⟨i, rfl, (decodeOp_ok_iff op i).mp h⟩

end Sys2Proof
end

