-- ==== Sys2Proof/Laws/Flags.lean ====
section
/-! SUPPORT. The flag computations as facts about the unsigned and signed readings. -/

namespace Sys2Proof.Machine

/-- The sign bit is set in the upper half of the unsigned range. -/
theorem signBit_eq_decide (v : Word) : signBit v = decide (2 ^ 31 ≤ uint v) := by
  have h := BitVec.msb_eq_decide v
  simpa [signBit, BitVec.msb, BitVec.getMsbD] using h

/-- The signed reading, from the unsigned one. -/
theorem sint_eq_ite (v : Word) : sint v = if uint v < 2 ^ 31 then (uint v : Int) else (uint v : Int) - 2 ^ 32 := by
  have h := BitVec.toInt_eq_toNat_cond v
  unfold sint uint
  rw [h]
  split <;> split <;> omega

@[simp] theorem signBit_not (v : Word) : signBit (~~~v) = !signBit v := by simp [signBit]
@[simp] theorem signBit_xor (v w : Word) : signBit (v ^^^ w) = (signBit v ^^ signBit w) := by simp [signBit]
@[simp] theorem signBit_and (v w : Word) : signBit (v &&& w) = (signBit v && signBit w) := by simp [signBit]

/-- V of the addition primitive reads three sign bits. -/
theorem addOverflow_eq (x y r : Word) :
    addOverflow x y r = (!(signBit x ^^ signBit y) && (signBit x ^^ signBit r)) := by
  simp [addOverflow]

/-- V of the subtraction primitive reads three sign bits. -/
theorem subOverflow_eq (x y r : Word) :
    subOverflow x y r = ((signBit x ^^ signBit y) && (signBit x ^^ signBit r)) := by
  simp [subOverflow]

end Sys2Proof.Machine
end

