-- ==== Sys2Proof/Laws/State.lean ====
section
/-! SUPPORT. What each update of the ports leaves in each field, and what each operand read gives after it. -/

namespace Sys2Proof.Machine

@[simp] theorem State.respond_req (s : State) (t : Response) : (s.respond t).req = s.req := rfl
@[simp] theorem State.respond_resp (s : State) (t : Response) : (s.respond t).resp = t := rfl

@[simp] theorem State.driveOp_op (s : State) (op : BitVec 3) : (s.driveOp op).req.op = op := rfl
@[simp] theorem State.driveOp_a (s : State) (op : BitVec 3) : (s.driveOp op).req.a = s.req.a := rfl
@[simp] theorem State.driveOp_b (s : State) (op : BitVec 3) : (s.driveOp op).req.b = s.req.b := rfl
@[simp] theorem State.driveOp_cin (s : State) (op : BitVec 3) : (s.driveOp op).req.cin = s.req.cin := rfl
@[simp] theorem State.driveOp_resp (s : State) (op : BitVec 3) : (s.driveOp op).resp = s.resp := rfl

@[simp] theorem State.present_req (s : State) (q : Request) : (s.present q).req = q := rfl
@[simp] theorem State.present_resp (s : State) (q : Request) : (s.present q).resp = s.resp := rfl

@[simp] theorem State.chain_req (s : State) (op : BitVec 3) (a b : Word) :
    (s.chain op a b).req = { op := op, a := a, b := b, cin := s.resp.c } := rfl
@[simp] theorem State.chainResult_req (s : State) (op : BitVec 3) (b : Word) :
    (s.chainResult op b).req = { op := op, a := s.resp.result, b := b, cin := s.resp.c } := rfl

@[simp] theorem State.selected_eq (s : State) : s.selected = decodeOp s.req.op := rfl
@[simp] theorem State.operandA_eq (s : State) : s.operandA = s.req.a := rfl
@[simp] theorem State.operandB_eq (s : State) : s.operandB = s.req.b := rfl
@[simp] theorem State.carryIn_eq (s : State) : s.carryIn = s.req.cin := rfl
@[simp] theorem State.borrowIn_eq (s : State) : s.borrowIn = !s.req.cin := rfl
@[simp] theorem borrowOf_eq (cin : Bool) : borrowOf cin = !cin := rfl

@[simp] theorem State.withFetchWord_op (s : State) (nbits w : Nat) :
    (s.withFetchWord nbits w).req.op = opOfTableWord nbits w := rfl
@[simp] theorem State.withFetchWord_resp (s : State) (nbits w : Nat) :
    (s.withFetchWord nbits w).resp = s.resp := rfl

@[simp] theorem packFlags_result (p : PrimResult) : (packFlags p).result = p.r := rfl
@[simp] theorem packFlags_n (p : PrimResult) : (packFlags p).n = negative p.r := rfl
@[simp] theorem packFlags_z (p : PrimResult) : (packFlags p).z = zero p.r := rfl
@[simp] theorem packFlags_c (p : PrimResult) : (packFlags p).c = p.co := rfl
@[simp] theorem packFlags_v (p : PrimResult) : (packFlags p).v = p.vo := rfl

end Sys2Proof.Machine
end

