-- ==== Sys2Proof/Laws/Ops.lean ====
section
/-! SUPPORT. Each shared operation in one lemma: what it can answer. -/

namespace Sys2Proof.Machine

/-- The 33-bit sum never wraps. -/
theorem sum33_toNat (x y : Word) (ci : Bool) : (sum33 x y ci).toNat = uint x + uint y + ci.toNat := by
  have hx := x.isLt
  have hy := y.isLt
  cases ci <;> simp [sum33, BitVec.toNat_add] <;> omega

/-- Truncation is the mathematical remainder. -/
theorem trunc32_toNat (k : Int) : (uint (trunc32 k) : Int) = k % 2 ^ 32 := by
  have h : 0 ≤ k % 2 ^ 32 := Int.emod_nonneg k (by decide)
  simpa [trunc32, BitVec.toNat_ofInt] using h

/-- What the addition primitive answers, in exact integers. -/
theorem addWithCarry_eq (x y : Word) (ci : Bool) :
    uint (addWithCarry x y ci).r = (uint x + uint y + ci.toNat) % 2 ^ 32
      ∧ (addWithCarry x y ci).co = decide (2 ^ 32 ≤ uint x + uint y + ci.toNat)
      ∧ (addWithCarry x y ci).vo = addOverflow x y (addWithCarry x y ci).r := by
  have hx := x.isLt
  have hy := y.isLt
  have hc : ci.toNat ≤ 1 := Bool.toNat_le ci
  have hs := sum33_toNat x y ci
  refine ⟨?_, ?_, rfl⟩
  · simp [addWithCarry, hs]
  · have h := BitVec.msb_eq_decide (sum33 x y ci)
    rw [hs] at h
    simpa [addWithCarry, BitVec.msb, BitVec.getMsbD] using h

/-- What the subtraction primitive answers, in exact integers. -/
theorem subWithBorrow_eq (x y : Word) (bi : Bool) :
    (uint (subWithBorrow x y bi).r : Int) = exactDiff x y bi % 2 ^ 32
      ∧ (subWithBorrow x y bi).co = decide (0 ≤ exactDiff x y bi)
      ∧ (subWithBorrow x y bi).vo = subOverflow x y (subWithBorrow x y bi).r :=
  ⟨trunc32_toNat _, rfl, rfl⟩

/-- Completing an evaluation answers one next state: the same inputs, the packed outputs. -/
theorem State.finish_next_iff (s t : State) (p : PrimResult) :
    s.finish p = .next t ↔ t = s.respond (packFlags p) := by
  simp [State.finish, eq_comm]

/-- A step runs the selected operation or refuses the reserved code. -/
theorem step_cases (s : State) :
    (∃ i, decodeOp s.req.op = .ok i ∧ step s = exec i s)
      ∨ (decodeOp s.req.op = .error .reserved ∧ step s = .refused .reservedOperation) := by
  rcases h : decodeOp s.req.op with e | i
  · cases e
    exact .inr ⟨rfl, by simp [step, h]⟩
  · exact .inl ⟨i, rfl, by simp [step, h]⟩

end Sys2Proof.Machine
end

