-- ==== Sys2Proof/Laws/PerInstr.lean ====
section
/-! SUPPORT. Facts about an operation as syntax, one lemma per constructor. -/

namespace Sys2Proof.Laws.CodeRoundTrip

/-- An operation's code is not the reserved one, and decodes to the operation. -/
def Statement (i : Instr) : Prop := encode i ≠ Config.reservedCode ∧ decodeOp (encode i) = .ok i

theorem add : Statement .add := ⟨by decide, rfl⟩
theorem adc : Statement .adc := ⟨by decide, rfl⟩
theorem sub : Statement .sub := ⟨by decide, rfl⟩
theorem sbc : Statement .sbc := ⟨by decide, rfl⟩
theorem rsb : Statement .rsb := ⟨by decide, rfl⟩
theorem rsc : Statement .rsc := ⟨by decide, rfl⟩
theorem cmp : Statement .cmp := ⟨by decide, rfl⟩

end Sys2Proof.Laws.CodeRoundTrip
end

