-- ==== Sys2Proof/Tests/Slice0.lean ====
section
/-! SUPPORT. Checks of the model against words and rows written out from the spec (spec/30_encoding.md R41,
spec/95_test_vectors.md), and a witness for each statement that has hypotheses. -/

namespace Sys2Proof.Tests

open Sys2Proof.Machine

/-- A state with the four input ports given; the outputs carry an unrelated earlier response. -/
def ports (op : BitVec 3) (a b : Word) (cin : Bool) : State :=
  { req := { op := op, a := a, b := b, cin := cin }
    resp := { result := 0x5A5A5A5A#32, n := true, z := true, c := true, v := true } }

/-- The result and the flags, written n, z, c, v (spec/10_state.md R16), that one step answers. -/
def answer (s : State) : Option (Word × BitVec 4) :=
  match step s with
  | .next t => some (t.resp.result,
      BitVec.ofBool t.resp.n ++ BitVec.ofBool t.resp.z ++ BitVec.ofBool t.resp.c ++ BitVec.ofBool t.resp.v)
  | .fault _ => none
  | .refused _ => none

/-! Well-formedness: the one check, and the nearest accepted input (spec/95_test_vectors.md section 2.7). -/

theorem test_reserved_code_is_ill_formed : (ports 0b111#3 1#32 2#32 true).req.wellFormed = false := by decide
theorem test_cmp_code_is_well_formed : (ports 0b110#3 1#32 2#32 true).req.wellFormed = true := by decide

/-! Decoding: the codes of spec/30_encoding.md R41, bit by bit. -/

theorem test_decode_add : decodeOp 0b000#3 = .ok .add := rfl
theorem test_decode_adc : decodeOp 0b001#3 = .ok .adc := rfl
theorem test_decode_sub : decodeOp 0b010#3 = .ok .sub := rfl
theorem test_decode_sbc : decodeOp 0b011#3 = .ok .sbc := rfl
theorem test_decode_rsb : decodeOp 0b100#3 = .ok .rsb := rfl
theorem test_decode_rsc : decodeOp 0b101#3 = .ok .rsc := rfl
theorem test_decode_cmp : decodeOp 0b110#3 = .ok .cmp := rfl
theorem test_decode_reserved : decodeOp 0b111#3 = .error .reserved := rfl
theorem test_table_word_rsc : decodeTableWord 8 0x5 = some .rsc := by decide
theorem test_table_word_reserved : decodeTableWord 8 0x7 = none := by decide

/-! The machine: refusal, reset, and the fetch word. -/

theorem test_reserved_step_is_refused : step (ports 0b111#3 1#32 2#32 true) = .refused .reservedOperation := rfl
theorem test_reset_is_settled : step State.reset = .next State.reset := rfl
theorem test_reset_invariant : State.reset.Inv = true := by decide
theorem test_fetch_word_runs_next : answer (State.reset.withFetchWord 8 0x5) = some (0xFFFFFFFF#32, 0b1000#4) := by decide

/-! Rows of spec/95_test_vectors.md: sections 1 (S4 to S7), 2.2, 2.3, 2.4 and 2.5. -/

theorem test_add_signed_overflow :
    answer (ports 0b000#3 0x7FFFFFFF#32 0x00000001#32 true) = some (0x80000000#32, 0b1001#4) := by decide
theorem test_add_carry_and_overflow :
    answer (ports 0b000#3 0x80000000#32 0x80000000#32 false) = some (0x00000000#32, 0b0111#4) := by decide
theorem test_adc_largest_sum :
    answer (ports 0b001#3 0xFFFFFFFF#32 0xFFFFFFFF#32 true) = some (0xFFFFFFFF#32, 0b1010#4) := by decide
theorem test_adc_carry_brings_sum_into_range :
    answer (ports 0b001#3 0x80000000#32 0xFFFFFFFF#32 true) = some (0x80000000#32, 0b1010#4) := by decide
theorem test_sub_borrow :
    answer (ports 0b010#3 0x00000000#32 0x00000001#32 false) = some (0xFFFFFFFF#32, 0b1000#4) := by decide
theorem test_sub_overflow :
    answer (ports 0b010#3 0x80000000#32 0x7FFFFFFF#32 true) = some (0x00000001#32, 0b0011#4) := by decide
theorem test_sbc_smallest_difference :
    answer (ports 0b011#3 0x00000000#32 0xFFFFFFFF#32 false) = some (0x00000000#32, 0b0100#4) := by decide
theorem test_sbc_carry_set :
    answer (ports 0b011#3 0x0000000A#32 0x00000003#32 true) = some (0x00000007#32, 0b0010#4) := by decide
theorem test_rsb_operand_order :
    answer (ports 0b100#3 0x0000000A#32 0x00000003#32 true) = some (0xFFFFFFF9#32, 0b1000#4) := by decide
theorem test_rsb_negates_most_negative :
    answer (ports 0b100#3 0x80000000#32 0x00000000#32 false) = some (0x80000000#32, 0b1001#4) := by decide
theorem test_rsc_borrow_causes_overflow :
    answer (ports 0b101#3 0x7FFFFFFF#32 0xFFFFFFFF#32 false) = some (0x7FFFFFFF#32, 0b0011#4) := by decide
theorem test_rsc_carry_set :
    answer (ports 0b101#3 0x00000003#32 0x0000000A#32 true) = some (0x00000007#32, 0b0010#4) := by decide
theorem test_cmp_drives_the_difference :
    answer (ports 0b110#3 0x0000000A#32 0x00000003#32 false) = some (0x00000007#32, 0b0010#4) := by decide
theorem test_cmp_orders_disagree :
    answer (ports 0b110#3 0xFFFFFFFF#32 0x00000000#32 true) = some (0xFFFFFFFF#32, 0b1010#4) := by decide

/-! Both whole-block functions and the carry chain on a row each (spec/95_test_vectors.md sections 2.1 and 2.4). -/

theorem test_datapath_row : datapath .rsc 0x80000000#32 0x00000001#32 false = eval .rsc 0x80000000#32 0x00000001#32 false := by
  decide
theorem test_carry_into_31 : carryInto31 0x7FFFFFFF#32 0x00000000#32 true = true := by decide
theorem test_truncation_of_wider_operand : trunc32 (-4294967289) = 0x00000007#32 := by decide

/-! Witnesses: a concrete state and operands that meet the hypotheses of each statement that has any. -/

theorem witness_DecodeAndEncodeAgree : 3 ≤ 8 ∧ decodeOp 0b011#3 = .ok .sbc ∧ decodeTableWord 3 0x6 = some .cmp :=
  ⟨by decide, rfl, by decide⟩
theorem witness_ReservedCodeAloneIsRefused :
    (ports 0b110#3 0#32 0#32 false).req.op ≠ 0b111#3 ∧ (ports 0b111#3 0#32 0#32 false).req.op = 0b111#3 := by decide
theorem witness_StepRunsSelectedOperation : decodeOp (ports 0b100#3 7#32 9#32 true).req.op = .ok .rsb := rfl
theorem witness_TableWordIsTheNextEvaluation : decodeTableWord 8 0x1 = some .adc ∧ decodeTableWord 8 0x6 = some .cmp := by
  decide
theorem witness_SubPrimitiveDifferenceBorrowOverflow : exactDiff 0x00000000#32 0xFFFFFFFF#32 true < 0 := by decide
theorem witness_OverflowFlagIsSignedOverflow_in_range :
    (addWithCarry 0x80000000#32 0xFFFFFFFF#32 true).vo = false ∧ (subWithBorrow 0x7FFFFFFF#32 0xFFFFFFFF#32 true).vo = false := by
  decide
theorem witness_OverflowFlagIsSignedOverflow_above :
    (2 : Int) ^ 31 - 1 < sint 0x7FFFFFFF#32 + sint 0x00000000#32 + (true.toNat : Int)
      ∧ (2 : Int) ^ 31 - 1 < sint 0x00000000#32 - sint 0x80000000#32 - (false.toNat : Int) := by decide
theorem witness_OverflowFlagIsSignedOverflow_below :
    sint 0x80000000#32 + sint 0xFFFFFFFF#32 + (false.toNat : Int) < -(2 ^ 31)
      ∧ sint 0x80000000#32 - sint 0x00000000#32 - (true.toNat : Int) < -(2 ^ 31) := by decide
theorem witness_SubAnswersDifference : (eval .sub 0x80000000#32 0x00000001#32 false).v = true := by decide
theorem witness_SbcAnswersDifferenceWithBorrow :
    (eval .sbc 0x00000001#32 0x00000000#32 false).z = true ∧ (0x00000001#32 : Word) - 0x00000000#32 = 1#32 := by decide
theorem witness_CarryInMattersToWithCarryVariantsOnly :
    (Instr.rsb = .add ∨ Instr.rsb = .sub ∨ Instr.rsb = .rsb ∨ Instr.rsb = .cmp)
      ∧ (Instr.rsc = .adc ∨ Instr.rsc = .sbc ∨ Instr.rsc = .rsc) := by decide
theorem witness_ResponseHasNoHistory :
    State.reset.req = (ports 0b000#3 0#32 0#32 false).req ∧ State.reset ≠ ports 0b000#3 0#32 0#32 false
      ∧ step (ports 0b000#3 0#32 0#32 false) = .next State.reset := ⟨by decide, by decide, rfl⟩
theorem witness_EvaluationsCommute :
    (∃ t, step (State.reset.present { op := 0b011#3, a := 5#32, b := 5#32, cin := false }) = .next t)
      ∧ ({ op := 0b011#3, a := 5#32, b := 5#32, cin := false } : Request).wellFormed = true
      ∧ ({ op := 0b110#3, a := 1#32, b := 9#32, cin := true } : Request).wellFormed = true :=
  ⟨⟨_, rfl⟩, by decide, by decide⟩
theorem witness_WiderOperandsAreReduced :
    InSigned32 (-(2 ^ 31)) ∧ InSigned32 (2 ^ 31 - 1) ∧ norm32 (-(2 ^ 31)) = -(2 ^ 31) ∧ norm32 (2 ^ 31) = -(2 ^ 31) := by decide
theorem witness_SafeRequestIsAnsweredExactly : (ports 0b110#3 3#32 4#32 true).Safe = true := by decide
theorem witness_EveryStepKeepsTheOutputsExact :
    State.reset.Inv = true ∧ step State.reset = .next State.reset := ⟨by decide, rfl⟩

end Sys2Proof.Tests
end

/-! PROOFS. What one evaluation answers and what it reads: the layer that the proofs about requests and responses use. -/

namespace Sys2Proof.Machine

/-- Responding overwrites the outputs whole, so it depends on the inputs alone (spec/10_state.md R21, R22). -/
theorem State.respond_eq_of_req_eq {s s' : State} (h : s.req = s'.req) (t : Response) : s.respond t = s'.respond t := by
  simp only [State.respond, h]

/-- Each arm of `exec` drives the outputs from the same primitive call as the reference listing (spec/40_primitives.md R69). -/
theorem exec_eq_respond_eval (i : Instr) (s : State) :
    exec i s = .next (s.respond (eval i s.req.a s.req.b s.req.cin)) := by
  cases i <;> rfl

/-- An operation reads the input ports alone. -/
theorem exec_eq_of_req_eq (i : Instr) {s s' : State} (h : s.req = s'.req) : exec i s = exec i s' := by
  rw [exec_eq_respond_eval, exec_eq_respond_eval, h, State.respond_eq_of_req_eq h]

/-- A defined code runs its operation. -/
theorem step_eq_exec {s : State} {i : Instr} (h : decodeOp s.req.op = .ok i) : step s = exec i s := by
  simp [step, h]

/-- A code that decodes to nothing is refused. -/
theorem step_eq_refused {s : State} (h : decodeOp s.req.op = .error .reserved) : step s = .refused .reservedOperation := by
  simp [step, h]

/-- A step answers exactly when the code is defined, and then with the response of the reference listing. -/
theorem step_next_iff (s t : State) :
    step s = .next t ↔ ∃ i, decodeOp s.req.op = .ok i ∧ t = s.respond (eval i s.req.a s.req.b s.req.cin) := by
  constructor
  · intro h
    obtain ⟨i, hi, hs⟩ | ⟨-, hs⟩ := step_cases s
    · rw [hs, exec_eq_respond_eval] at h
      exact ⟨i, hi, (Host.Outcome.next.inj h).symm⟩
    · cases hs.symm.trans h
  · rintro ⟨i, hi, rfl⟩
    rw [step_eq_exec hi, exec_eq_respond_eval]

/-- The frame of a step: the input ports stay as driven (spec/10_state.md R14). -/
theorem step_next_req {s t : State} (h : step s = .next t) : t.req = s.req := by
  obtain ⟨i, -, rfl⟩ := (step_next_iff s t).mp h
  exact State.respond_req s _

/-- A step reads the input ports alone (spec/10_state.md R21, R22). -/
theorem step_eq_of_req_eq {s s' : State} (h : s.req = s'.req) : step s = step s' := by
  obtain ⟨i, hi, hs⟩ | ⟨hr, hs⟩ := step_cases s
  · rw [hs, exec_eq_of_req_eq i h, step_eq_exec (h ▸ hi)]
  · rw [hs, step_eq_refused (h ▸ hr)]

end Sys2Proof.Machine

/-! PROOFS. The statements of spec/10_state.md: an evaluation keeps its inputs and has no history. -/

namespace Sys2Proof.Claims

open Sys2Proof.Machine

/-- Every operation answers the response of the reference listing, whatever code and earlier response the ports carry. -/
theorem answers_eval (i : Instr) (a b : Word) (cin : Bool) : Answers i a b cin (eval i a b cin) :=
  fun _ _ => exec_eq_respond_eval i _

/-- Settles O33: a step reads the request alone, and the state it answers carries the same request. -/
theorem responseHasNoHistory : Obligations.ResponseHasNoHistory := by
  refine ⟨fun _ _ hreq => step_eq_of_req_eq hreq, fun s t h => ?_⟩
  calc step t = step s := step_eq_of_req_eq (step_next_req h)
    _ = .next t := h

/-- Settles O35: the one response is that of the reference listing, which has no code and no earlier response to read. -/
theorem inputPortsStayAsDriven : Obligations.InputPortsStayAsDriven :=
  fun i a b cin => ⟨eval i a b cin, answers_eval i a b cin⟩

end Sys2Proof.Claims

/-! PROOFS. The statement of spec/20_memory.md: evaluations commute, since a presented request is answered on its own. -/

namespace Sys2Proof.Machine

/-- The caller's one check is that the decoder knows the code (spec/30_encoding.md R43). -/
theorem wellFormed_iff_decodes (q : Request) : q.wellFormed = true ↔ ∃ i, decodeOp q.op = .ok i := by
  obtain ⟨i, hi, -⟩ | ⟨herr, hop⟩ := decodeOp_cases q.op
  · have hop : q.op ≠ Config.reservedCode := fun h => by cases hi.symm.trans ((decodeOp_error_iff q.op).mpr h)
    simp [Request.wellFormed, hop, hi]
  · simp [Request.wellFormed, hop, hop ▸ herr]

/-- A step completes on the well-formed requests and on no other. -/
theorem exists_step_next_iff (s : State) : (∃ t, step s = .next t) ↔ s.req.wellFormed = true := by
  rw [wellFormed_iff_decodes]
  constructor
  · rintro ⟨t, h⟩
    obtain ⟨i, hi, -⟩ := (step_next_iff s t).mp h
    exact ⟨i, hi⟩
  · rintro ⟨i, hi⟩
    exact ⟨_, (step_next_iff s _).mpr ⟨i, hi, rfl⟩⟩

/-- Presenting drives all four inputs, so the state it is done in does not enter the answer (spec/20_memory.md R35). -/
theorem step_present_eq (s s' : State) (q : Request) : step (s.present q) = step (s'.present q) :=
  step_eq_of_req_eq rfl

end Sys2Proof.Machine

namespace Sys2Proof.Claims

open Sys2Proof.Machine

/-- Settles O34: each request completes when it is presented alone, and a request presented after the other one is answered
with the very state it is answered with alone. -/
theorem evaluationsCommute : Obligations.EvaluationsCommute := by
  refine ⟨fun s t _ q _ => step_present_eq t s q, fun s p q hp hq => ?_⟩
  obtain ⟨sp, hsp⟩ := (exists_step_next_iff (s.present p)).mpr hp
  obtain ⟨sq, hsq⟩ := (exists_step_next_iff (s.present q)).mpr hq
  have hspq : step (sp.present q) = .next sq := (step_present_eq sp s q).trans hsq
  have hsqp : step (sq.present p) = .next sp := (step_present_eq sq s p).trans hsp
  exact ⟨sp, sq, sq, sp, hsp, hspq, hsq, hsqp, rfl, rfl⟩

end Sys2Proof.Claims

/-! PROOFS. The statements of spec/30_encoding.md: the wiring of each operation onto a primitive (R42). -/

namespace Sys2Proof.Machine

/-! One equation per row of the wiring table, with the third argument said of the `cin` port itself. -/

@[simp] theorem eval_add (a b : Word) (cin : Bool) : eval .add a b cin = packFlags (addWithCarry a b false) := rfl
@[simp] theorem eval_adc (a b : Word) (cin : Bool) : eval .adc a b cin = packFlags (addWithCarry a b cin) := rfl
@[simp] theorem eval_sub (a b : Word) (cin : Bool) : eval .sub a b cin = packFlags (subWithBorrow a b false) := rfl
@[simp] theorem eval_sbc (a b : Word) (cin : Bool) : eval .sbc a b cin = packFlags (subWithBorrow a b (!cin)) := rfl
@[simp] theorem eval_rsb (a b : Word) (cin : Bool) : eval .rsb a b cin = packFlags (subWithBorrow b a false) := rfl
@[simp] theorem eval_rsc (a b : Word) (cin : Bool) : eval .rsc a b cin = packFlags (subWithBorrow b a (!cin)) := rfl
@[simp] theorem eval_cmp (a b : Word) (cin : Bool) : eval .cmp a b cin = packFlags (subWithBorrow a b false) := rfl

/-- Z is the comparison of the result with 0 (spec/40_primitives.md R58). -/
@[simp] theorem zero_iff (r : Word) : zero r = true ↔ r = 0#32 := beq_iff_eq

end Sys2Proof.Machine

namespace Sys2Proof.Claims

open Sys2Proof.Machine

/-- Flag packing drives the outputs as the operation rules write it (spec/40_primitives.md R58, R59). -/
theorem drivenFrom_packFlags (p : PrimResult) : DrivenFrom (packFlags p) p :=
  ⟨packFlags_result p, packFlags_n p, zero_iff p.r, packFlags_c p, packFlags_v p⟩

/-- An operation that the reference listing wires to a primitive call is answered with outputs driven from that call. -/
theorem exists_answers_drivenFrom {i : Instr} {a b : Word} {cin : Bool} {p : PrimResult}
    (h : eval i a b cin = packFlags p) : ∃ t, Answers i a b cin t ∧ DrivenFrom t p :=
  ⟨packFlags p, h ▸ answers_eval i a b cin, drivenFrom_packFlags p⟩

/-- Settles O6, row by row of the wiring table. -/
theorem wiringOntoThePrimitives : Obligations.WiringOntoThePrimitives := fun a b cin =>
  ⟨exists_answers_drivenFrom (eval_add a b cin),
    exists_answers_drivenFrom (eval_adc a b cin),
    exists_answers_drivenFrom (eval_sub a b cin),
    exists_answers_drivenFrom (eval_sbc a b cin),
    exists_answers_drivenFrom (eval_rsb a b cin),
    exists_answers_drivenFrom (eval_rsc a b cin),
    exists_answers_drivenFrom (eval_cmp a b cin)⟩

end Sys2Proof.Claims

/-! PROOFS. The statements of spec/40_primitives.md: the two primitives (R50 to R57), the flag packing (R58, R59), and totality
(R63). First the facts about truncation, the flag formulas and the exact difference that they rest on. -/

namespace Sys2Proof.Machine

/-- Truncation is determined by its unsigned reading (spec/00_scope.md R7). -/
theorem eq_trunc32_iff (r : Word) (k : Int) : r = trunc32 k ↔ (uint r : Int) = k % 2 ^ 32 := by
  rw [← trunc32_toNat k, Int.natCast_inj, BitVec.toNat_inj]

/-- The result of the addition primitive is the exact sum, truncated (spec/40_primitives.md R51). -/
theorem addWithCarry_r_eq_trunc32 (x y : Word) (ci : Bool) :
    (addWithCarry x y ci).r = trunc32 ((uint x : Int) + uint y + ci.toNat) := by
  obtain ⟨hr, -, -⟩ := addWithCarry_eq x y ci
  rw [eq_trunc32_iff, hr]
  push_cast
  rfl

/-- V of the addition primitive: equal operand signs and another result sign (spec/40_primitives.md R53). -/
theorem addOverflow_iff (x y r : Word) :
    addOverflow x y r = true ↔ signBit x = signBit y ∧ signBit r ≠ signBit x := by
  rw [addOverflow_eq]
  cases signBit x <;> cases signBit y <;> simp

/-- V of the subtraction primitive: different operand signs and a result sign other than the minuend's
(spec/40_primitives.md R57). -/
theorem subOverflow_iff (x y r : Word) :
    subOverflow x y r = true ↔ signBit x ≠ signBit y ∧ signBit r ≠ signBit x := by
  rw [subOverflow_eq]
  cases signBit x <;> cases signBit y <;> simp

/-- The exact difference fits in 33 bits of two's complement (spec/40_primitives.md R54). -/
theorem exactDiff_bounds (x y : Word) (bi : Bool) : -(2 ^ 32) ≤ exactDiff x y bi ∧ exactDiff x y bi ≤ 2 ^ 32 - 1 := by
  have hx : uint x < 2 ^ 32 := x.isLt
  have hy : uint y < 2 ^ 32 := y.isLt
  have hb := Bool.toNat_le bi
  unfold exactDiff
  omega

/-- A negative difference wraps around once (spec/40_primitives.md R55). -/
theorem subWithBorrow_r_of_neg {x y : Word} {bi : Bool} (h : exactDiff x y bi < 0) :
    (uint (subWithBorrow x y bi).r : Int) = exactDiff x y bi + 2 ^ 32 := by
  obtain ⟨hr, -, -⟩ := subWithBorrow_eq x y bi
  obtain ⟨hlow, -⟩ := exactDiff_bounds x y bi
  rw [hr]
  omega

/-- N says that the signed reading of the result is negative (spec/40_primitives.md R58). -/
theorem negative_iff (r : Word) : negative r = true ↔ sint r < 0 := by
  have hr : uint r < 2 ^ 32 := r.isLt
  rw [negative, signBit_eq_decide, sint_eq_ite, decide_eq_true_iff]
  split <;> omega

/-- Z says that each of the 32 bits of the result is 0 (spec/40_primitives.md R58). -/
theorem zero_iff_forall_getLsbD (r : Word) : zero r = true ↔ ∀ k : Nat, k < 32 → r.getLsbD k = false := by
  rw [zero_iff]
  constructor
  · rintro rfl k -
    exact BitVec.getLsbD_zero
  · intro h
    apply BitVec.eq_of_getLsbD_eq
    intro k hk
    rw [h k hk, BitVec.getLsbD_zero]

/-- A step runs an operation, which answers, or refuses the reserved code: no step stops with a fault
(spec/60_exceptions.md R90). -/
theorem step_ne_fault (s : State) (f : Fault) : step s ≠ .fault f := by
  intro hf
  obtain ⟨i, -, hs⟩ | ⟨-, hs⟩ := step_cases s
  · rw [hs, exec_eq_respond_eval] at hf
    cases hf
  · cases hs.symm.trans hf

end Sys2Proof.Machine

namespace Sys2Proof.Claims

open Sys2Proof.Machine

/-- Settles O7: the 33-bit sum never wraps, so its low 32 bits and its top bit are the truncated sum and the carry. -/
theorem addPrimitiveSumCarryOverflow : Obligations.AddPrimitiveSumCarryOverflow := by
  refine ⟨fun x y ci => ?_, by decide⟩
  obtain ⟨-, hco, -⟩ := addWithCarry_eq x y ci
  have hcarry : (addWithCarry x y ci).co = true ↔ uint x + uint y + ci.toNat > 2 ^ 32 - 1 := by
    rw [hco, decide_eq_true_iff]
    omega
  exact ⟨sum33_toNat x y ci, addWithCarry_r_eq_trunc32 x y ci, rfl, hcarry, rfl, addOverflow_iff x y _⟩

/-- Settles O8: the difference is formed in the integers, so its sign is the carry and one wrap-around the result. -/
theorem subPrimitiveDifferenceBorrowOverflow : Obligations.SubPrimitiveDifferenceBorrowOverflow := by
  intro x y bi
  obtain ⟨-, hco, -⟩ := subWithBorrow_eq x y bi
  have hborrow : (subWithBorrow x y bi).co = true ↔ 0 ≤ exactDiff x y bi := by rw [hco, decide_eq_true_iff]
  exact ⟨rfl, rfl, subWithBorrow_r_of_neg, hborrow, rfl, subOverflow_iff x y _⟩

/-- Settles O10: the packing reads N and Z off the 32-bit result, never off the exact sum, as R58's example shows. -/
theorem flagsComeFromTruncatedResult : Obligations.FlagsComeFromTruncatedResult := by
  refine ⟨fun p => ?_, sum33_toNat _ _ _, by decide⟩
  exact ⟨packFlags_n p, negative_iff p.r, zero_iff_forall_getLsbD p.r, packFlags_result p, packFlags_c p, packFlags_v p⟩

/-- Settles O36: each operation's answer is written out, and no step faults. -/
theorem everyOperationAnswersAndNoStepFaults : Obligations.EveryOperationAnswersAndNoStepFaults :=
  ⟨fun i s => ⟨_, exec_eq_respond_eval i s⟩, step_ne_fault⟩

end Sys2Proof.Claims

/-! PROOFS. The statements of spec/41_add_adc.md: ADD, ADC and the law of the zero operand (R70 to R72). First what they need of
the addition primitive: commutativity, the zero operand, and V as signed overflow. -/

namespace Sys2Proof.Machine

theorem sum33_comm (x y : Word) (ci : Bool) : sum33 x y ci = sum33 y x ci := by
  simp only [sum33, BitVec.add_comm (x.setWidth 33)]

/-- The overflow formula singles out port `x`, but V is 1 only when both operands have one sign. -/
theorem addOverflow_comm (x y r : Word) : addOverflow x y r = addOverflow y x r := by
  rw [addOverflow_eq, addOverflow_eq]
  cases signBit x <;> cases signBit y <;> rfl

theorem addWithCarry_comm (x y : Word) (ci : Bool) : addWithCarry x y ci = addWithCarry y x ci := by
  simp only [addWithCarry, sum33_comm x y, addOverflow_comm x y]

/-- Adding 0 without a carry-in carries nothing out and keeps the sign. -/
@[simp] theorem addWithCarry_zero (x : Word) : addWithCarry x 0#32 false = { r := x, co := false, vo := false } := by
  have hx : uint x < 2 ^ 32 := x.isLt
  obtain ⟨hr, hco, hvo⟩ := addWithCarry_eq x 0#32 false
  have hres : (addWithCarry x 0#32 false).r = x := BitVec.eq_of_toNat_eq (hr.trans (Nat.mod_eq_of_lt hx))
  have hcarry : (addWithCarry x 0#32 false).co = false := hco.trans (decide_eq_false (Nat.not_le.mpr hx))
  have hover : (addWithCarry x 0#32 false).vo = false := by simp [hvo, hres, addOverflow_eq]
  exact (PrimResult.mk.injEq ..).mpr ⟨hres, hcarry, hover⟩

/-- V of the addition primitive is signed overflow of the exact sum (spec/40_primitives.md R61). -/
theorem addWithCarry_vo_iff (x y : Word) (ci : Bool) :
    (addWithCarry x y ci).vo = true ↔ ¬ InSigned32 (sint x + sint y + ci.toNat) := by
  have hx : uint x < 2 ^ 32 := x.isLt
  have hy : uint y < 2 ^ 32 := y.isLt
  have hc := Bool.toNat_le ci
  obtain ⟨hr, -, hvo⟩ := addWithCarry_eq x y ci
  rw [hvo, addOverflow_iff]
  simp only [signBit_eq_decide, sint_eq_ite, hr, decide_eq_decide, ne_eq]
  split <;> split <;> omega

end Sys2Proof.Machine

namespace Sys2Proof.Claims

open Sys2Proof.Machine

/-- A row of the spec's tables is an evaluation of the reference listing. -/
theorem row_of_eval {i : Instr} {a b result : Word} {cin : Bool} {nzcv : BitVec 4}
    (h : eval i a b cin = { result := result, n := nzcv.getLsbD 3, z := nzcv.getLsbD 2, c := nzcv.getLsbD 1,
                            v := nzcv.getLsbD 0 }) : Row i a b cin result nzcv := by
  rw [Row, ← h]
  exact answers_eval i a b cin

/-- A row without a carry-in column is one evaluation for each carry-in. -/
theorem rowAnyCarry_of_eval {i : Instr} {a b result : Word} {nzcv : BitVec 4}
    (h : ∀ cin, eval i a b cin = { result := result, n := nzcv.getLsbD 3, z := nzcv.getLsbD 2, c := nzcv.getLsbD 1,
                                   v := nzcv.getLsbD 0 }) : RowAnyCarry i a b result nzcv :=
  fun cin => row_of_eval (h cin)

/-- Operations that the reference listing evaluates alike answer alike. -/
theorem sameResponse_of_eval_eq {i j : Instr} {a b a' b' : Word} {cin cin' : Bool}
    (h : eval i a b cin = eval j a' b' cin') : SameResponse i a b cin j a' b' cin' :=
  ⟨eval i a b cin, answers_eval i a b cin, h ▸ answers_eval j a' b' cin'⟩

/-- The packed flags of a sum: C is unsigned and V signed overflow of the exact sum. -/
theorem flagsMean_addWithCarry (a b : Word) (ci : Bool) :
    FlagsMean (packFlags (addWithCarry a b ci)) (2 ^ 32 ≤ uint a + uint b + ci.toNat)
      (sint a + sint b + ci.toNat) := by
  obtain ⟨-, hco, -⟩ := addWithCarry_eq a b ci
  exact ⟨negative_iff _, zero_iff _, by rw [packFlags_c, hco, decide_eq_true_iff], addWithCarry_vo_iff a b ci⟩

/-- ADD with a zero operand answers the other operand, with C and V clear (spec/41_add_adc.md R72). -/
theorem answers_add_zero (a : Word) (cin : Bool) :
    Answers .add a 0#32 cin { result := a, n := a.getLsbD 31, z := a == 0#32, c := false, v := false } := by
  have h := answers_eval .add a 0#32 cin
  rwa [eval_add, addWithCarry_zero] at h

/-- ADD answers alike with its operands exchanged, whatever the two carry-ins. -/
theorem eval_add_comm (a b : Word) (cin cin' : Bool) : eval .add a b cin = eval .add b a cin' := by
  rw [eval_add, eval_add, addWithCarry_comm]

/-- Settles O17: ADD drives the packed sum without carry-in, and each table row is one evaluation of it. -/
theorem addAnswersSum : Obligations.AddAnswersSum := by
  refine ⟨rfl, fun a b => ?sum,
    fun a b cin cin' => sameResponse_of_eval_eq (eval_add_comm a b cin cin'),
    fun a cin => ⟨_, answers_add_zero a cin, rfl, rfl, rfl⟩,
    rowAnyCarry_of_eval (by decide), rowAnyCarry_of_eval (by decide), rowAnyCarry_of_eval (by decide),
    rowAnyCarry_of_eval (by decide), rowAnyCarry_of_eval (by decide)⟩
  case sum =>
    obtain ⟨hr, -, -⟩ := addWithCarry_eq a b false
    have hflags := flagsMean_addWithCarry a b false
    simp only [Bool.toNat_false, Nat.cast_zero, add_zero] at hflags
    exact ⟨packFlags (addWithCarry a b false), answers_eval .add a b, drivenFrom_packFlags _, hr, hflags⟩

/-- Settles O18: ADC drives the packed sum with the carry-in of the port, which is ADD's when that is 0. -/
theorem adcAnswersSumWithCarry : Obligations.AdcAnswersSumWithCarry := by
  refine ⟨rfl, fun a b cin => ?sum,
    fun a b cin => sameResponse_of_eval_eq ((eval_adc a b false).trans (eval_add a b cin).symm),
    row_of_eval (by decide), row_of_eval (by decide), row_of_eval (by decide), row_of_eval (by decide),
    rowAnyCarry_of_eval (by decide), row_of_eval (by decide), row_of_eval (by decide)⟩
  case sum =>
    obtain ⟨hr, -, -⟩ := addWithCarry_eq a b cin
    exact ⟨packFlags (addWithCarry a b cin), answers_eval .adc a b cin, drivenFrom_packFlags _, hr,
      flagsMean_addWithCarry a b cin⟩

/-- Settles O24: the zero on the left is the zero on the right by commutativity. -/
theorem addingZeroReturnsTheOperand : Obligations.AddingZeroReturnsTheOperand := by
  intro a cin
  have hright := answers_add_zero a cin
  have hleft := answers_eval .add 0#32 a cin
  rw [eval_add, addWithCarry_comm, addWithCarry_zero] at hleft
  exact ⟨_, hright, hleft, rfl, negative_iff a⟩

end Sys2Proof.Claims

/-! PROOFS. The statements of spec/42_sub_sbc.md: SUB, SBC and the law of the carry set (R75 to R77). First what they need of the
subtraction primitive: complement and add, the result in modular arithmetic, the zero subtrahend, equal operands, and V as
signed overflow. -/

namespace Sys2Proof.Machine

/-- No borrow out: the minuend covers the subtrahend and the borrow-in (spec/40_primitives.md R56). -/
theorem subWithBorrow_co_iff (x y : Word) (bi : Bool) :
    (subWithBorrow x y bi).co = true ↔ uint y + bi.toNat ≤ uint x := by
  obtain ⟨-, hco, -⟩ := subWithBorrow_eq x y bi
  rw [hco, decide_eq_true_iff, exactDiff]
  omega

/-- Subtraction is complement and add: the complement of `y` reads `2^32 - 1 - uint y`, which makes up for the borrow of 2^32
that the carry-out of the adder stands for (spec/40_primitives.md R60). -/
theorem subWithBorrow_eq_addWithCarry (x y : Word) (bi : Bool) :
    subWithBorrow x y bi = addWithCarry x (~~~y) (!bi) := by
  have hy : uint y < 2 ^ 32 := y.isLt
  have hnot : uint (~~~y) = 2 ^ 32 - 1 - uint y := BitVec.toNat_not
  have hbi : bi.toNat + (!bi).toNat = 1 := by cases bi <;> rfl
  obtain ⟨hr, -, hvo⟩ := subWithBorrow_eq x y bi
  obtain ⟨hr', hco', hvo'⟩ := addWithCarry_eq x (~~~y) (!bi)
  have hres : (subWithBorrow x y bi).r = (addWithCarry x (~~~y) (!bi)).r := by
    apply BitVec.eq_of_toNat_eq
    change uint _ = uint _
    rw [exactDiff] at hr
    omega
  have hcarry : (subWithBorrow x y bi).co = (addWithCarry x (~~~y) (!bi)).co := by
    rw [Bool.eq_iff_iff, subWithBorrow_co_iff, hco', decide_eq_true_iff]
    omega
  have hover : (subWithBorrow x y bi).vo = (addWithCarry x (~~~y) (!bi)).vo := by
    rw [hvo, hvo', hres, subOverflow_eq, addOverflow_eq, signBit_not, Bool.xor_not, Bool.not_not]
  exact (PrimResult.mk.injEq ..).mpr ⟨hres, hcarry, hover⟩

/-- The result of the subtraction primitive, in arithmetic modulo 2^32 (spec/40_primitives.md R55). -/
theorem subWithBorrow_r (x y : Word) (bi : Bool) :
    (subWithBorrow x y bi).r = x - y - BitVec.ofNat 32 bi.toNat := by
  calc (subWithBorrow x y bi).r = (((uint x : Int) - uint y - bi.toNat : Int) : Word) := rfl
    _ = BitVec.ofNat 32 (uint x) - BitVec.ofNat 32 (uint y) - BitVec.ofNat 32 bi.toNat := by push_cast; rfl
    _ = x - y - BitVec.ofNat 32 bi.toNat := by simp only [BitVec.ofNat_toNat, BitVec.setWidth_eq]

/-- The result is 0 exactly when the operands differ by the borrow-in modulo 2^32. -/
theorem subWithBorrow_r_eq_zero_iff (x y : Word) (bi : Bool) :
    (subWithBorrow x y bi).r = 0#32 ↔ x - y = BitVec.ofNat 32 bi.toNat := by
  rw [subWithBorrow_r]
  exact sub_eq_zero

/-- Without a borrow-in, the result is 0 exactly for equal operands. -/
theorem subWithBorrow_false_r_eq_zero_iff (x y : Word) : (subWithBorrow x y false).r = 0#32 ↔ x = y :=
  (subWithBorrow_r_eq_zero_iff x y false).trans sub_eq_zero

/-- Subtracting 0 without a borrow-in borrows nothing and keeps the sign (spec/42_sub_sbc.md R78). -/
@[simp] theorem subWithBorrow_zero (x : Word) : subWithBorrow x 0#32 false = { r := x, co := true, vo := false } := by
  have hres : (subWithBorrow x 0#32 false).r = x := by simp [subWithBorrow_r]
  have hcarry : (subWithBorrow x 0#32 false).co = true := (subWithBorrow_co_iff x 0#32 false).mpr (Nat.zero_le _)
  obtain ⟨-, -, hvo⟩ := subWithBorrow_eq x 0#32 false
  have hover : (subWithBorrow x 0#32 false).vo = false := by simp [hvo, hres, subOverflow_eq]
  exact (PrimResult.mk.injEq ..).mpr ⟨hres, hcarry, hover⟩

/-- Equal operands without a borrow-in give 0, borrow nothing and do not overflow (spec/42_sub_sbc.md R78). -/
@[simp] theorem subWithBorrow_self (x : Word) : subWithBorrow x x false = { r := 0#32, co := true, vo := false } := by
  have hres : (subWithBorrow x x false).r = 0#32 := (subWithBorrow_false_r_eq_zero_iff x x).mpr rfl
  have hcarry : (subWithBorrow x x false).co = true := (subWithBorrow_co_iff x x false).mpr le_rfl
  obtain ⟨-, -, hvo⟩ := subWithBorrow_eq x x false
  have hover : (subWithBorrow x x false).vo = false := by simp [hvo, subOverflow_eq]
  exact (PrimResult.mk.injEq ..).mpr ⟨hres, hcarry, hover⟩

/-- V of the subtraction primitive is signed overflow of the exact difference (spec/40_primitives.md R61). -/
theorem subWithBorrow_vo_iff (x y : Word) (bi : Bool) :
    (subWithBorrow x y bi).vo = true ↔ ¬ InSigned32 (sint x - sint y - bi.toNat) := by
  have hx : uint x < 2 ^ 32 := x.isLt
  have hy : uint y < 2 ^ 32 := y.isLt
  have hb := Bool.toNat_le bi
  obtain ⟨hr, -, hvo⟩ := subWithBorrow_eq x y bi
  rw [exactDiff] at hr
  rw [hvo, subOverflow_iff]
  simp only [signBit_eq_decide, sint_eq_ite, decide_eq_decide, ne_eq]
  split <;> split <;> omega

/-- The exact difference of SBC, with the borrow-in said of the carry-in (spec/42_sub_sbc.md R76). -/
theorem exactDiff_not (a b : Word) (cin : Bool) :
    exactDiff a b (!cin) = (uint a : Int) - uint b - 1 + cin.toNat := by
  cases cin <;> simp [exactDiff]

end Sys2Proof.Machine

namespace Sys2Proof.Claims

open Sys2Proof.Machine

/-- An operation answers one response: that of the reference listing. -/
theorem answers_iff_eq_eval (i : Instr) (a b : Word) (cin : Bool) (t : Response) :
    Answers i a b cin t ↔ t = eval i a b cin := by
  constructor
  · intro h
    have hnext := (h 0#3 t).symm.trans (answers_eval i a b cin 0#3 t)
    exact congrArg State.resp (Host.Outcome.next.inj hnext)
  · rintro rfl
    exact answers_eval i a b cin

/-- Two operations answer alike exactly when the reference listing evaluates them alike. -/
theorem sameResponse_iff_eval_eq (i j : Instr) (a b a' b' : Word) (cin cin' : Bool) :
    SameResponse i a b cin j a' b' cin' ↔ eval i a b cin = eval j a' b' cin' := by
  constructor
  · rintro ⟨t, hi, hj⟩
    exact ((answers_iff_eq_eval ..).mp hi).symm.trans ((answers_iff_eq_eval ..).mp hj)
  · exact sameResponse_of_eval_eq

/-- Outputs packed from a subtraction are driven from complement-and-add as well. -/
theorem drivenFrom_complement_add (x y : Word) (bi : Bool) :
    DrivenFrom (packFlags (subWithBorrow x y bi)) (addWithCarry x (~~~y) (!bi)) :=
  subWithBorrow_eq_addWithCarry x y bi ▸ drivenFrom_packFlags _

/-- The packed flags of a difference: C is no borrow and V signed overflow of the exact difference. -/
theorem flagsMean_subWithBorrow (a b : Word) (bi : Bool) :
    FlagsMean (packFlags (subWithBorrow a b bi)) (uint b + bi.toNat ≤ uint a) (sint a - sint b - bi.toNat) :=
  ⟨negative_iff _, zero_iff _, subWithBorrow_co_iff a b bi, subWithBorrow_vo_iff a b bi⟩

/-- Z of a difference: the operands differ by the borrow-in modulo 2^32. -/
theorem packFlags_subWithBorrow_z_iff (a b : Word) (bi : Bool) :
    (packFlags (subWithBorrow a b bi)).z = true ↔ a - b = BitVec.ofNat 32 bi.toNat :=
  (zero_iff _).trans (subWithBorrow_r_eq_zero_iff a b bi)

/-- Z of a difference without a borrow-in: the operands are equal (spec/42_sub_sbc.md R75). -/
theorem packFlags_subWithBorrow_false_z_iff (a b : Word) :
    (packFlags (subWithBorrow a b false)).z = true ↔ a = b :=
  (zero_iff _).trans (subWithBorrow_false_r_eq_zero_iff a b)

/-- C of a difference without a borrow-in is clear when the unsigned minuend is the smaller (spec/42_sub_sbc.md R75). -/
theorem packFlags_subWithBorrow_false_c_eq_false_iff (a b : Word) :
    (packFlags (subWithBorrow a b false)).c = false ↔ uint a < uint b := by
  rw [← Bool.not_eq_true, packFlags_c, subWithBorrow_co_iff, Bool.toNat_false, Nat.add_zero, Nat.not_le]

/-- V of a difference needs operands of opposite sign (spec/42_sub_sbc.md R75). -/
theorem signs_differ_of_packFlags_subWithBorrow_v {a b : Word} {bi : Bool}
    (h : (packFlags (subWithBorrow a b bi)).v = true) : a.getLsbD 31 ≠ b.getLsbD 31 :=
  ((subOverflow_iff a b _).mp h).1

/-- Without a borrow-in, a zero difference comes with no borrow (spec/42_sub_sbc.md R76). -/
theorem not_zero_and_borrow_without_borrow_in (a b : Word) :
    ¬ ((packFlags (subWithBorrow a b false)).z = true ∧ (packFlags (subWithBorrow a b false)).c = false) := by
  rw [packFlags_subWithBorrow_false_z_iff, packFlags_subWithBorrow_false_c_eq_false_iff]
  rintro ⟨rfl, hlt⟩
  exact Nat.lt_irrefl _ hlt

/-- SUB of zero answers the minuend, with C set and V clear (spec/42_sub_sbc.md R78). -/
theorem answers_sub_zero (a : Word) (cin : Bool) :
    Answers .sub a 0#32 cin { result := a, n := a.getLsbD 31, z := a == 0#32, c := true, v := false } := by
  have h := answers_eval .sub a 0#32 cin
  rwa [eval_sub, subWithBorrow_zero] at h

/-- SUB of a value from itself answers 0 with Z and C set (spec/42_sub_sbc.md R78). -/
theorem rowAnyCarry_sub_self (a : Word) : RowAnyCarry .sub a a 0#32 0b0110#4 :=
  rowAnyCarry_of_eval fun cin => by rw [eval_sub, subWithBorrow_self]; rfl

/-- Exchanging the operands of SUB gives RSB, whatever the two carry-ins (spec/43_rsb_rsc.md R82). -/
theorem eval_sub_eq_eval_rsb (a b : Word) (cin cin' : Bool) : eval .sub a b cin = eval .rsb b a cin' := by
  rw [eval_sub, eval_rsb]

/-- SBC with the carry set subtracts without a borrow-in, as SUB does (spec/42_sub_sbc.md R77). -/
theorem eval_sbc_true_eq_eval_sub (a b : Word) (cin : Bool) : eval .sbc a b true = eval .sub a b cin := by
  rw [eval_sbc, eval_sub, Bool.not_true]

/-- SUB is not commutative: 0 - 1 borrows and 1 - 0 does not. -/
theorem not_sameResponse_sub_exchanged : ¬ SameResponse .sub 0#32 1#32 false .sub 1#32 0#32 false := by
  rw [sameResponse_iff_eval_eq]
  decide

/-- Settles O19: SUB drives the packed difference without borrow-in, and each table row is one evaluation of it. -/
theorem subAnswersDifference : Obligations.SubAnswersDifference := by
  refine ⟨rfl, fun a b => ?difference, rowAnyCarry_sub_self,
    fun a cin => ⟨_, answers_sub_zero a cin, rfl, rfl, rfl⟩,
    fun a b cin cin' => sameResponse_of_eval_eq (eval_sub_eq_eval_rsb a b cin cin'),
    ⟨_, _, not_sameResponse_sub_exchanged⟩,
    rowAnyCarry_of_eval (by decide), rowAnyCarry_of_eval (by decide), rowAnyCarry_of_eval (by decide),
    rowAnyCarry_of_eval (by decide), rowAnyCarry_of_eval (by decide), rowAnyCarry_of_eval (by decide),
    rowAnyCarry_of_eval (by decide), rowAnyCarry_of_eval (by decide)⟩
  case difference =>
    obtain ⟨hr, -, -⟩ := subWithBorrow_eq a b false
    have hflags := flagsMean_subWithBorrow a b false
    simp only [exactDiff, Bool.toNat_false, Nat.cast_zero, add_zero, sub_zero] at hr hflags
    exact ⟨packFlags (subWithBorrow a b false), answers_eval .sub a b, drivenFrom_packFlags _,
      drivenFrom_complement_add a b false, hr, hflags, packFlags_subWithBorrow_false_z_iff a b,
      packFlags_subWithBorrow_false_c_eq_false_iff a b, signs_differ_of_packFlags_subWithBorrow_v⟩

/-- Settles O20: SBC drives the packed difference with the complement of the carry-in as borrow-in, which is SUB's when the
carry-in is 1. -/
theorem sbcAnswersDifferenceWithBorrow : Obligations.SbcAnswersDifferenceWithBorrow := by
  refine ⟨rfl, fun a b cin => ?difference,
    fun a b cin => sameResponse_of_eval_eq (eval_sbc_true_eq_eval_sub a b cin),
    row_of_eval (by decide), row_of_eval (by decide), row_of_eval (by decide), row_of_eval (by decide),
    fun a b cin => ⟨_, answers_eval .sub a b cin, not_zero_and_borrow_without_borrow_in a b⟩,
    row_of_eval (by decide), row_of_eval (by decide), rowAnyCarry_of_eval (by decide), row_of_eval (by decide),
    row_of_eval (by decide), row_of_eval (by decide)⟩
  case difference =>
    obtain ⟨hr, -, -⟩ := subWithBorrow_eq a b (!cin)
    rw [exactDiff_not] at hr
    have hadd := drivenFrom_complement_add a b (!cin)
    rw [Bool.not_not] at hadd
    refine ⟨packFlags (subWithBorrow a b (!cin)), answers_eval .sbc a b cin, drivenFrom_packFlags _, hadd, hr,
      flagsMean_subWithBorrow a b (!cin), ?_⟩
    rintro rfl
    exact packFlags_subWithBorrow_z_iff a b true

/-- Settles O27: SBC with the carry set and SUB are one primitive call. -/
theorem sbcWithCarrySetIsSub : Obligations.SbcWithCarrySetIsSub := by
  refine ⟨fun a b cin => ?_, row_of_eval (by decide), rowAnyCarry_of_eval (by decide)⟩
  have hsbc := answers_eval .sbc a b true
  rw [eval_sbc_true_eq_eval_sub a b cin] at hsbc
  exact ⟨eval .sub a b cin, hsbc, answers_eval .sub a b cin, drivenFrom_packFlags _⟩

end Sys2Proof.Claims

/-! PROOFS. The statements of spec/43_rsb_rsc.md: RSB and RSC (R80, R81). The subtraction primitive is called with port `b` as
the minuend, so its facts above serve with the operands exchanged; what is new is the zero minuend, which negates. -/

namespace Sys2Proof.Machine

/-- Subtracting from 0 negates modulo 2^32, and truncation takes the negated signed reading to the same word
(spec/43_rsb_rsc.md R80). -/
theorem zero_subWithBorrow_r (a : Word) : (subWithBorrow 0#32 a false).r = trunc32 (-(sint a)) := by
  calc (subWithBorrow 0#32 a false).r = -a := by simp [subWithBorrow_r]
    _ = trunc32 (-(sint a)) := by rw [trunc32, BitVec.ofInt_neg, BitVec.ofInt_toInt]

/-- Negation borrows except from 0 (spec/43_rsb_rsc.md R80). -/
theorem zero_subWithBorrow_co_iff (a : Word) : (subWithBorrow 0#32 a false).co = true ↔ a = 0#32 := by
  calc (subWithBorrow 0#32 a false).co = true ↔ uint a ≤ 0 := subWithBorrow_co_iff 0#32 a false
    _ ↔ uint a = 0 := Nat.le_zero
    _ ↔ a = 0#32 := BitVec.toNat_inj (y := 0#32)

/-- The one value whose negation leaves the signed range is the most negative one, -2^31 (spec/43_rsb_rsc.md R80). -/
theorem zero_subWithBorrow_vo_iff (a : Word) : (subWithBorrow 0#32 a false).vo = true ↔ a = 0x80000000#32 := by
  have hlow : -(2 ^ 31) ≤ sint a := BitVec.le_toInt a
  have hhigh : sint a < 2 ^ 31 := BitVec.toInt_lt
  calc (subWithBorrow 0#32 a false).vo = true ↔ ¬ InSigned32 (0 - sint a - 0) := subWithBorrow_vo_iff 0#32 a false
    _ ↔ sint a = -(2 ^ 31) := by omega
    _ ↔ a = 0x80000000#32 := BitVec.toInt_inj (y := 0x80000000#32)

end Sys2Proof.Machine

namespace Sys2Proof.Claims

open Sys2Proof.Machine

/-- RSC with the carry set subtracts without a borrow-in, as RSB does (spec/43_rsb_rsc.md R83). -/
theorem eval_rsc_true_eq_eval_rsb (a b : Word) (cin : Bool) : eval .rsc a b true = eval .rsb a b cin := by
  rw [eval_rsc, eval_rsb, Bool.not_true]

/-- Settles O21: RSB drives the packed difference `b - a` without borrow-in, which negates `a` when `b` is 0, and each table row
is one evaluation of it. -/
theorem rsbAnswersReversedDifference : Obligations.RsbAnswersReversedDifference := by
  refine ⟨rfl, fun a b => ?difference,
    fun a cin => ⟨_, answers_eval .rsb a 0#32 cin, zero_subWithBorrow_r a, zero_subWithBorrow_co_iff a,
      zero_subWithBorrow_vo_iff a⟩,
    rowAnyCarry_of_eval (by decide), rowAnyCarry_of_eval (by decide), rowAnyCarry_of_eval (by decide),
    rowAnyCarry_of_eval (by decide), rowAnyCarry_of_eval (by decide), rowAnyCarry_of_eval (by decide),
    rowAnyCarry_of_eval (by decide), rowAnyCarry_of_eval (by decide), rowAnyCarry_of_eval (by decide)⟩
  case difference =>
    obtain ⟨hr, -, hvo⟩ := subWithBorrow_eq b a false
    have hflags := flagsMean_subWithBorrow b a false
    simp only [exactDiff, Bool.toNat_false, Nat.cast_zero, add_zero, sub_zero] at hr hflags
    exact ⟨packFlags (subWithBorrow b a false), answers_eval .rsb a b, drivenFrom_packFlags _,
      drivenFrom_complement_add b a false, hr, hflags, (packFlags_subWithBorrow_false_z_iff b a).trans eq_comm, hvo⟩

/-- Settles O22: RSC drives the packed difference `b - a` with the complement of the carry-in as borrow-in, which is RSB's when
the carry-in is 1. -/
theorem rscAnswersReversedDifferenceWithBorrow : Obligations.RscAnswersReversedDifferenceWithBorrow := by
  refine ⟨rfl, fun a b cin => ?difference,
    fun a b cin => sameResponse_of_eval_eq (eval_rsc_true_eq_eval_rsb a b cin),
    row_of_eval (by decide), row_of_eval (by decide), row_of_eval (by decide), row_of_eval (by decide),
    row_of_eval (by decide), row_of_eval (by decide), rowAnyCarry_of_eval (by decide), row_of_eval (by decide),
    row_of_eval (by decide), row_of_eval (by decide), row_of_eval (by decide)⟩
  case difference =>
    obtain ⟨hr, -, -⟩ := subWithBorrow_eq b a (!cin)
    rw [exactDiff_not] at hr
    have hadd := drivenFrom_complement_add b a (!cin)
    rw [Bool.not_not] at hadd
    exact ⟨packFlags (subWithBorrow b a (!cin)), answers_eval .rsc a b cin, drivenFrom_packFlags _, hadd, hr,
      flagsMean_subWithBorrow b a (!cin)⟩

end Sys2Proof.Claims

/-! PROOFS. The statements of spec/44_cmp.md: CMP and its equivalence with SUB (R85, R86). The wiring of CMP is that of SUB, so
the facts on differences above serve; what is new is that N and V together give the signed comparison. -/

namespace Sys2Proof.Machine

/-- The signed reading of a difference is the exact signed difference, brought back into the 32-bit range by one wrap-around
where it lies above or below it (spec/40_primitives.md R61). -/
theorem subWithBorrow_sint_r_cases (x y : Word) (bi : Bool) :
    let d : Int := sint x - sint y - bi.toNat
    let r : Int := sint (subWithBorrow x y bi).r
    (InSigned32 d ∧ r = d) ∨ (2 ^ 31 - 1 < d ∧ r = d - 2 ^ 32) ∨ (d < -(2 ^ 31) ∧ r = d + 2 ^ 32) := by
  have hx : uint x < 2 ^ 32 := x.isLt
  have hy : uint y < 2 ^ 32 := y.isLt
  have hb := Bool.toNat_le bi
  obtain ⟨hr, -, -⟩ := subWithBorrow_eq x y bi
  rw [exactDiff] at hr
  simp only [sint_eq_ite]
  omega

/-- N and V together are the sign of the exact signed difference: V tells whether the wrap-around has turned the sign that N
shows (spec/40_primitives.md R66). -/
theorem subWithBorrow_negative_xor_vo_iff (x y : Word) (bi : Bool) :
    (negative (subWithBorrow x y bi).r ^^ (subWithBorrow x y bi).vo) = true ↔ sint x - sint y - bi.toNat < 0 := by
  have hxlow : -(2 ^ 31) ≤ sint x := BitVec.le_toInt x
  have hxhigh : sint x < 2 ^ 31 := BitVec.toInt_lt
  have hylow : -(2 ^ 31) ≤ sint y := BitVec.le_toInt y
  have hyhigh : sint y < 2 ^ 31 := BitVec.toInt_lt
  have hb := Bool.toNat_le bi
  rw [Bool.xor_iff_ne, ne_eq, Bool.eq_iff_iff, negative_iff, subWithBorrow_vo_iff]
  obtain ⟨hin, hr⟩ | ⟨habove, hr⟩ | ⟨hbelow, hr⟩ := subWithBorrow_sint_r_cases x y bi
  · omega
  · omega
  · omega

end Sys2Proof.Machine

namespace Sys2Proof.Claims

open Sys2Proof.Machine

/-- CMP and SUB make one primitive call, whatever the two carry-ins (spec/44_cmp.md R86). -/
theorem eval_cmp_eq_eval_sub (a b : Word) (cin cin' : Bool) : eval .cmp a b cin = eval .sub a b cin' := by
  rw [eval_cmp, eval_sub]

/-- CMP of a value with itself answers 0 with Z and C set (spec/44_cmp.md R85). -/
theorem rowAnyCarry_cmp_self (a : Word) : RowAnyCarry .cmp a a 0#32 0b0110#4 :=
  rowAnyCarry_of_eval fun cin => by rw [eval_cmp, subWithBorrow_self]; rfl

/-- C of a difference without a borrow-in: the unsigned minuend covers the subtrahend (spec/44_cmp.md R85). -/
theorem packFlags_subWithBorrow_false_c_iff (a b : Word) :
    (packFlags (subWithBorrow a b false)).c = true ↔ uint b ≤ uint a :=
  subWithBorrow_co_iff a b false

/-- N XOR V of a difference without a borrow-in: the signed minuend is the smaller (spec/44_cmp.md R85). -/
theorem packFlags_subWithBorrow_false_n_xor_v_iff (a b : Word) :
    ((packFlags (subWithBorrow a b false)).n ^^ (packFlags (subWithBorrow a b false)).v) = true ↔ sint a < sint b := by
  calc (negative (subWithBorrow a b false).r ^^ (subWithBorrow a b false).vo) = true
      ↔ sint a - sint b - 0 < 0 := subWithBorrow_negative_xor_vo_iff a b false
    _ ↔ sint a < sint b := by omega

/-- Settles O23: CMP drives the packed difference of SUB, whose flags compare the operands, and each table row is one evaluation
of it. -/
theorem cmpAnswersComparison : Obligations.CmpAnswersComparison := by
  refine ⟨rfl, fun a b => ?difference, rowAnyCarry_cmp_self,
    rowAnyCarry_of_eval (by decide), rowAnyCarry_of_eval (by decide), rowAnyCarry_of_eval (by decide),
    rowAnyCarry_of_eval (by decide), rowAnyCarry_of_eval (by decide)⟩
  case difference =>
    obtain ⟨hr, -, -⟩ := subWithBorrow_eq a b false
    simp only [exactDiff, Bool.toNat_false, Nat.cast_zero, sub_zero] at hr
    exact ⟨packFlags (subWithBorrow a b false), answers_eval .cmp a b, answers_eval .sub a b, drivenFrom_packFlags _,
      drivenFrom_complement_add a b false, hr, negative_iff _, packFlags_subWithBorrow_false_z_iff a b,
      packFlags_subWithBorrow_false_c_iff a b, packFlags_subWithBorrow_false_n_xor_v_iff a b⟩

/-- Settles O31: one primitive call stands behind both, under two constructors with the codes 6 and 2. -/
theorem compareIsSubtract : Obligations.CompareIsSubtract :=
  ⟨fun a b cin cin' => sameResponse_of_eval_eq (eval_cmp_eq_eval_sub a b cin cin'), by decide, by decide⟩

end Sys2Proof.Claims

/-! PROOFS. The remaining statements of spec/30_encoding.md: decode and encode agree, on table words as well (sections 1 and 2),
the reserved code (R43), and the step as an evaluation of the selected operation. -/

namespace Sys2Proof

/-- Of a table word with room for the three select bits, those three bits reach the port (log entry 11). -/
theorem opOfTableWord_toNat {nbits : Nat} (hbits : 3 ≤ nbits) (w : Nat) : (opOfTableWord nbits w).toNat = w % 8 := by
  calc (opOfTableWord nbits w).toNat = w % 2 ^ nbits % 2 ^ 3 := BitVec.toNat_ofNat ..
    _ = w % 2 ^ 3 := Nat.mod_mod_of_dvd w (Nat.pow_dvd_pow 2 hbits)

/-- A table word decodes to an operation exactly when it drives the operation's code onto the port. -/
theorem decodeTableWord_eq_some_iff (nbits w : Nat) (i : Instr) :
    decodeTableWord nbits w = some i ↔ opOfTableWord nbits w = encode i := by
  rw [← decodeOp_ok_iff]
  unfold decodeTableWord
  obtain ⟨j, hj, -⟩ | ⟨herr, -⟩ := decodeOp_cases (opOfTableWord nbits w)
  · simp [hj]
  · simp [herr]

/-- A table word of 3 bits or more decodes by its three low bits. -/
theorem decodeTableWord_eq_some_iff_mod {nbits : Nat} (hbits : 3 ≤ nbits) (w : Nat) (i : Instr) :
    decodeTableWord nbits w = some i ↔ w % 8 = (encode i).toNat := by
  rw [decodeTableWord_eq_some_iff, ← BitVec.toNat_inj, opOfTableWord_toNat hbits]

end Sys2Proof

namespace Sys2Proof.Claims

open Sys2Proof.Machine

/-- Settles O2: both directions are the decoder's one characterisation, and a table word reaches it with its low three bits. -/
theorem decodeAndEncodeAgree : Obligations.DecodeAndEncodeAgree := by
  refine ⟨fun i => ⟨decodeOp_encode i, fun nbits hbits => ?_⟩, fun op i h => ((decodeOp_ok_iff op i).mp h).symm,
    fun nbits w i hbits => decodeTableWord_eq_some_iff_mod hbits w i⟩
  rw [decodeTableWord_eq_some_iff_mod hbits]
  exact Nat.mod_eq_of_lt (encode i).isLt

/-- Settles O1: the seven codes are those of the encoder, and the eighth is the reserved one. -/
theorem codesDecodeInTableOrder : Obligations.CodesDecodeInTableOrder :=
  ⟨decodeOp_encode .add, decodeOp_encode .adc, decodeOp_encode .sub, decodeOp_encode .sbc, decodeOp_encode .rsb,
    decodeOp_encode .rsc, decodeOp_encode .cmp, (decodeOp_error_iff _).mpr rfl⟩

/-- Settles O3: a step that is not refused runs an operation, which answers. -/
theorem reservedCodeAloneIsRefused : Obligations.ReservedCodeAloneIsRefused := by
  intro s
  obtain ⟨i, hi, hs⟩ | ⟨herr, hs⟩ := step_cases s
  · have hnext := hs.trans (exec_eq_respond_eval i s)
    have hrefused : step s ≠ .refused .reservedOperation := by
      rw [hnext]
      exact nofun
    have hop : s.req.op ≠ 0b111#3 := by
      intro h
      cases hi.symm.trans ((decodeOp_error_iff s.req.op).mpr h)
    exact ⟨iff_of_false hrefused hop, fun _ => ⟨_, hnext⟩⟩
  · have hop : s.req.op = 0b111#3 := (decodeOp_error_iff s.req.op).mp herr
    exact ⟨iff_of_true hs hop, fun h => absurd hop h⟩

/-- Settles O4: the step is the selected operation with nothing around it. -/
theorem stepRunsSelectedOperation : Obligations.StepRunsSelectedOperation :=
  fun _ _ h => step_eq_exec h

/-- Settles O5: the word drives the operation's code, which the next step decodes. -/
theorem tableWordIsTheNextEvaluation : Obligations.TableWordIsTheNextEvaluation := by
  intro s nbits w i h
  have hop : opOfTableWord nbits w = encode i := (decodeTableWord_eq_some_iff nbits w i).mp h
  have hdec : decodeOp (s.withFetchWord nbits w).req.op = .ok i := by
    rw [State.withFetchWord_op, hop, decodeOp_encode]
  exact ⟨by rw [State.withFetchWord, State.driveOp, hop], step_eq_exec hdec⟩

end Sys2Proof.Claims

/-! PROOFS. The statements on reset and the invariant (spec/10_state.md section 5): the response of the reference listing is the
one that exact integer arithmetic gives, so every completed step leaves exact outputs. -/

namespace Sys2Proof.Machine

/-- The borrow-in `1 - cin`, in the integers (spec/30_encoding.md R44). -/
theorem natCast_toNat_not (cin : Bool) : ((!cin).toNat : Int) = 1 - cin.toNat := by
  cases cin <;> rfl

/-- The wiring table against the operation table (spec/30_encoding.md R41, R42): each operation is one primitive call whose
exact value, in any integer reading of the operands, is the operation's formula. -/
theorem eval_cases (i : Instr) (a b : Word) (cin : Bool) :
    (subOf i = false ∧ ∃ ci, eval i a b cin = packFlags (addWithCarry a b ci)
        ∧ ∀ x y, tableFormula i x y cin = x + y + ci.toNat)
      ∨ (subOf i = true ∧ ∃ bi, eval i a b cin = packFlags (subWithBorrow a b bi)
        ∧ ∀ x y, tableFormula i x y cin = x - y - bi.toNat)
      ∨ (subOf i = true ∧ ∃ bi, eval i a b cin = packFlags (subWithBorrow b a bi)
        ∧ ∀ x y, tableFormula i x y cin = y - x - bi.toNat) := by
  cases i with
  | add => exact .inl ⟨rfl, false, rfl, fun x y => (add_zero (x + y)).symm⟩
  | adc => exact .inl ⟨rfl, cin, rfl, fun _ _ => rfl⟩
  | sub => exact .inr (.inl ⟨rfl, false, rfl, fun x y => (sub_zero (x - y)).symm⟩)
  | sbc => exact .inr (.inl ⟨rfl, !cin, rfl, fun x y => by rw [natCast_toNat_not, tableFormula]⟩)
  | rsb => exact .inr (.inr ⟨rfl, false, rfl, fun x y => (sub_zero (y - x)).symm⟩)
  | rsc => exact .inr (.inr ⟨rfl, !cin, rfl, fun x y => by rw [natCast_toNat_not, tableFormula]⟩)
  | cmp => exact .inr (.inl ⟨rfl, false, rfl, fun x y => (sub_zero (x - y)).symm⟩)

/-- C of a sum in exact integers: it does not fit in 32 bits. -/
theorem exactCarry_of_sum {i : Instr} (h : subOf i = false) (a b : Word) (cin : Bool) :
    exactCarry i a b cin = decide (2 ^ 32 ≤ exactUnsigned i a b cin) := by
  cases i with
  | add | adc => rfl
  | sub | sbc | rsb | rsc | cmp => cases h

/-- C of a difference in exact integers: it is not negative. -/
theorem exactCarry_of_difference {i : Instr} (h : subOf i = true) (a b : Word) (cin : Bool) :
    exactCarry i a b cin = decide (0 ≤ exactUnsigned i a b cin) := by
  cases i with
  | add | adc => cases h
  | sub | sbc | rsb | rsc | cmp => rfl

/-- The result of every operation is the table's formula, truncated (spec/40_primitives.md R51, R55). -/
theorem eval_result (i : Instr) (a b : Word) (cin : Bool) :
    (eval i a b cin).result = trunc32 (exactUnsigned i a b cin) := by
  unfold exactUnsigned
  obtain ⟨-, ci, he, hf⟩ | ⟨-, bi, he, hf⟩ | ⟨-, bi, he, hf⟩ := eval_cases i a b cin
  · rw [he, hf]
    exact addWithCarry_r_eq_trunc32 a b ci
  · rw [he, hf]
    rfl
  · rw [he, hf]
    rfl

/-- C of every operation is the carry of exact integers (spec/40_primitives.md R62). -/
theorem eval_c (i : Instr) (a b : Word) (cin : Bool) : (eval i a b cin).c = exactCarry i a b cin := by
  obtain ⟨hsub, ci, he, hf⟩ | ⟨hsub, bi, he, hf⟩ | ⟨hsub, bi, he, hf⟩ := eval_cases i a b cin
  · obtain ⟨-, hco, -⟩ := addWithCarry_eq a b ci
    rw [he, packFlags_c, hco, exactCarry_of_sum hsub, exactUnsigned, hf, decide_eq_decide]
    exact_mod_cast Iff.rfl
  · rw [he, exactCarry_of_difference hsub, exactUnsigned, hf]
    rfl
  · rw [he, exactCarry_of_difference hsub, exactUnsigned, hf]
    rfl

/-- V of every operation is signed overflow of the table's formula (spec/40_primitives.md R61). -/
theorem eval_v_iff (i : Instr) (a b : Word) (cin : Bool) :
    (eval i a b cin).v = true ↔ ¬ InSigned32 (exactSigned i a b cin) := by
  unfold exactSigned
  obtain ⟨-, ci, he, hf⟩ | ⟨-, bi, he, hf⟩ | ⟨-, bi, he, hf⟩ := eval_cases i a b cin
  · rw [he, hf]
    exact addWithCarry_vo_iff a b ci
  · rw [he, hf]
    exact subWithBorrow_vo_iff a b bi
  · rw [he, hf]
    exact subWithBorrow_vo_iff b a bi

/-- N and Z of every operation are those of its result (spec/40_primitives.md R58). -/
theorem eval_n_z (i : Instr) (a b : Word) (cin : Bool) :
    (eval i a b cin).n = negative (eval i a b cin).result ∧ (eval i a b cin).z = zero (eval i a b cin).result := by
  obtain ⟨-, _, he, -⟩ | ⟨-, _, he, -⟩ | ⟨-, _, he, -⟩ := eval_cases i a b cin
  all_goals exact he ▸ ⟨rfl, rfl⟩

/-- Truncation to 0 is divisibility by 2^32. -/
theorem trunc32_eq_zero_iff (k : Int) : trunc32 k = 0#32 ↔ k % 2 ^ 32 = 0 := by
  rw [eq_comm, eq_trunc32_iff, eq_comm]
  rfl

/-- The reference listing answers what exact integer arithmetic gives, for every operation and all operands. -/
theorem exactFor_eval (i : Instr) (a b : Word) (cin : Bool) : (eval i a b cin).exactFor i a b cin = true := by
  obtain ⟨hn, hz⟩ := eval_n_z i a b cin
  have hresult : (uint (eval i a b cin).result : Int) = exactUnsigned i a b cin % 2 ^ 32 := by
    rw [eval_result, trunc32_toNat]
  have hneg : (eval i a b cin).n = decide (sint (eval i a b cin).result < 0) := by
    rw [hn, Bool.eq_iff_iff, negative_iff, decide_eq_true_iff]
  have hzero : (eval i a b cin).z = decide (exactUnsigned i a b cin % 2 ^ 32 = 0) := by
    rw [hz, Bool.eq_iff_iff, zero_iff, eval_result, trunc32_eq_zero_iff, decide_eq_true_iff]
  have hover : (eval i a b cin).v = !decide (InSigned32 (exactSigned i a b cin)) := by
    rw [Bool.eq_iff_iff, eval_v_iff, Bool.not_eq_true', decide_eq_false_iff_not]
  simp only [Response.exactFor, hresult, hneg, hzero, eval_c, hover, beq_self_eq_true, Bool.and_self]

/-- The outputs of a state are exact when they are the reference listing's for the selected operation. -/
theorem outputsExact_respond_eval {s : State} {i : Instr} (h : decodeOp s.req.op = .ok i) :
    (s.respond (eval i s.req.a s.req.b s.req.cin)).outputsExact = true := by
  simp only [State.outputsExact, State.respond_req, State.respond_resp, h, exactFor_eval]

/-- A completed step leaves exact outputs, whatever stood on them before. -/
theorem step_next_outputsExact {s t : State} (h : step s = .next t) : t.outputsExact = true := by
  obtain ⟨i, hi, rfl⟩ := (step_next_iff s t).mp h
  exact outputsExact_respond_eval hi

/-- A step keeps the code on `op`, and with it safety. -/
theorem step_next_safe {s t : State} (h : step s = .next t) : t.Safe = s.Safe := by
  rw [State.Safe, State.Safe, step_next_req h]

theorem inv_iff (s : State) : s.Inv = true ↔ s.Safe = true ∧ s.outputsExact = true := Bool.and_eq_true_iff

end Sys2Proof.Machine

namespace Sys2Proof.Claims

open Sys2Proof.Machine

/-- Settles O40: a defined code is answered, and with the response of exact integer arithmetic. -/
theorem safeRequestIsAnsweredExactly : Obligations.SafeRequestIsAnsweredExactly := by
  intro s hsafe
  obtain ⟨t, h⟩ := (exists_step_next_iff s).mpr hsafe
  exact ⟨t, h, step_next_req h, (step_next_safe h).trans hsafe, step_next_outputsExact h⟩

/-- Settles O41: of the invariant, a step keeps the safety and makes the outputs exact anew. -/
theorem everyStepKeepsTheOutputsExact : Obligations.EveryStepKeepsTheOutputsExact := by
  intro s t hinv h
  obtain ⟨hsafe, -⟩ := (inv_iff s).mp hinv
  exact (inv_iff t).mpr ⟨(step_next_safe h).trans hsafe, step_next_outputsExact h⟩

/-- Settles O39: at reset the ports carry ADD of 0 and 0, and the response to it is on the outputs already. -/
theorem resetIsSettled : Obligations.ResetIsSettled := by
  have hsettled : step State.reset = .next State.reset := (step_next_iff _ _).mpr ⟨.add, rfl, rfl⟩
  have hsafe : State.reset.Safe = true := rfl
  exact ⟨(inv_iff _).mpr ⟨hsafe, step_next_outputsExact hsettled⟩, hsettled, rfl⟩

end Sys2Proof.Claims

/-! PROOFS. The statements that spec/40_primitives.md marks as its own inferences: nothing is lost in 33 bits (R50 to R58),
complement and add (R60), what C and V mean (R61, R62), the carry chain (R65), the comparisons (R66), one adder (R68). -/

namespace Sys2Proof.Machine

/-- Carry out of a sum: it does not fit in 32 bits (spec/40_primitives.md R52). -/
theorem addWithCarry_co_iff (x y : Word) (ci : Bool) :
    (addWithCarry x y ci).co = true ↔ 2 ^ 32 ≤ uint x + uint y + ci.toNat := by
  obtain ⟨-, hco, -⟩ := addWithCarry_eq x y ci
  rw [hco, decide_eq_true_iff]

/-- Carry-out and result together are the exact sum (spec/40_primitives.md R52). -/
theorem addWithCarry_exact (x y : Word) (ci : Bool) :
    uint x + uint y + ci.toNat = 2 ^ 32 * (addWithCarry x y ci).co.toNat + uint (addWithCarry x y ci).r := by
  have hx : uint x < 2 ^ 32 := x.isLt
  have hy : uint y < 2 ^ 32 := y.isLt
  have hc := Bool.toNat_le ci
  obtain ⟨hr, hco, -⟩ := addWithCarry_eq x y ci
  rw [hr, hco]
  by_cases hsum : 2 ^ 32 ≤ uint x + uint y + ci.toNat
  · rw [decide_eq_true hsum, Bool.toNat_true]
    omega
  · rw [decide_eq_false hsum, Bool.toNat_false]
    omega

/-- Borrow and result together are the exact difference (spec/40_primitives.md R56). -/
theorem subWithBorrow_exact (x y : Word) (bi : Bool) :
    exactDiff x y bi
      = (uint (subWithBorrow x y bi).r : Int) - 2 ^ 32 * (1 - ((subWithBorrow x y bi).co.toNat : Int)) := by
  obtain ⟨hlow, hhigh⟩ := exactDiff_bounds x y bi
  obtain ⟨hr, hco, -⟩ := subWithBorrow_eq x y bi
  rw [hr, hco]
  by_cases hdiff : 0 ≤ exactDiff x y bi
  · rw [decide_eq_true hdiff, Bool.toNat_true]
    omega
  · rw [decide_eq_false hdiff, Bool.toNat_false]
    omega

/-- A result is not negative and zero at once (spec/40_primitives.md R58). -/
theorem not_negative_and_zero (r : Word) : ¬ (negative r = true ∧ zero r = true) := by
  rw [zero_iff]
  rintro ⟨hn, rfl⟩
  cases hn

/-- The signed reading of a sum is the exact signed sum, brought back into the 32-bit range by one wrap-around where it lies
above or below it (spec/40_primitives.md R61). -/
theorem addWithCarry_sint_r_cases (x y : Word) (ci : Bool) :
    let d : Int := sint x + sint y + ci.toNat
    let r : Int := sint (addWithCarry x y ci).r
    (InSigned32 d ∧ r = d) ∨ (2 ^ 31 - 1 < d ∧ r = d - 2 ^ 32) ∨ (d < -(2 ^ 31) ∧ r = d + 2 ^ 32) := by
  have hx : uint x < 2 ^ 32 := x.isLt
  have hy : uint y < 2 ^ 32 := y.isLt
  have hc := Bool.toNat_le ci
  obtain ⟨hr, -, -⟩ := addWithCarry_eq x y ci
  simp only [sint_eq_ite]
  omega

/-- What a wrapped result says of the exact value `d`, once V is known to be signed overflow. -/
theorem wrapped_result_of_cases {vo : Bool} {d r : Int} (hvo : vo = true ↔ ¬ InSigned32 d)
    (hr : (InSigned32 d ∧ r = d) ∨ (2 ^ 31 - 1 < d ∧ r = d - 2 ^ 32) ∨ (d < -(2 ^ 31) ∧ r = d + 2 ^ 32)) :
    (vo = false → r = d) ∧ (2 ^ 31 - 1 < d → r = d - 2 ^ 32) ∧ (d < -(2 ^ 31) → r = d + 2 ^ 32) := by
  refine ⟨fun hfalse => ?_, fun habove => by omega, fun hbelow => by omega⟩
  have hin : InSigned32 d := by
    by_contra hout
    exact Bool.noConfusion (hfalse.symm.trans (hvo.mpr hout))
  omega

/-- The carry into bit 31 is the unsigned overflow of the two operands without their sign bits. -/
theorem carryInto31_iff (x y : Word) (ci : Bool) :
    carryInto31 x y ci = true ↔ 2 ^ 31 ≤ uint x % 2 ^ 31 + uint y % 2 ^ 31 + ci.toNat := by
  simp only [carryInto31, decide_eq_true_iff, BitVec.extractLsb'_toNat, Nat.shiftRight_zero]

/-- V of the addition primitive compares the carry into the sign bit with the carry out of it (spec/40_primitives.md R65). -/
theorem addWithCarry_vo_eq_xor (x y : Word) (ci : Bool) :
    (addWithCarry x y ci).vo = (carryInto31 x y ci ^^ (addWithCarry x y ci).co) := by
  have hx : uint x < 2 ^ 32 := x.isLt
  have hy : uint y < 2 ^ 32 := y.isLt
  have hc := Bool.toNat_le ci
  obtain ⟨hr, -, hvo⟩ := addWithCarry_eq x y ci
  have hdiffer : (carryInto31 x y ci ^^ (addWithCarry x y ci).co) = true
      ↔ ¬ (2 ^ 31 ≤ uint x % 2 ^ 31 + uint y % 2 ^ 31 + ci.toNat ↔ 2 ^ 32 ≤ uint x + uint y + ci.toNat) := by
    rw [Bool.xor_iff_ne, ne_eq, Bool.eq_iff_iff, carryInto31_iff, addWithCarry_co_iff]
  rw [Bool.eq_iff_iff, hdiffer, hvo, addOverflow_iff]
  simp only [signBit_eq_decide, hr, decide_eq_decide, ne_eq]
  omega

/-- The single adder has the truth table of the two primitives (spec/40_primitives.md R68): its inverter and its carry-in are
complement and add. -/
theorem datapath_eq_eval (i : Instr) (a b : Word) (cin : Bool) : datapath i a b cin = eval i a b cin := by
  cases i with
  | add | adc => rfl
  | sub | rsb | cmp => exact congrArg packFlags (subWithBorrow_eq_addWithCarry _ _ false).symm
  | sbc | rsc =>
    rw [eval, borrowOf_eq, subWithBorrow_eq_addWithCarry, Bool.not_not]
    rfl

/-- The control equations of spec/30_encoding.md R44 on the seven codes. -/
theorem controls_eq_code_bits (i : Instr) :
    usecOf i = (encode i).getLsbD 0 ∧ subOf i = ((encode i).getLsbD 2 || (encode i).getLsbD 1)
      ∧ swapOf i = ((encode i).getLsbD 2 && !(encode i).getLsbD 1) := by
  cases i <;> decide

end Sys2Proof.Machine

namespace Sys2Proof.Claims

open Sys2Proof.Machine

/-- Settles O9: the exact sum and the exact difference fit in 33 bits, and the carry-out is the bit that the result lacks. -/
theorem primitivesLoseNothing : Obligations.PrimitivesLoseNothing := by
  intro x y k
  have hsum : uint x + uint y + k.toNat ≤ 2 ^ 33 - 1 := sum33_toNat x y k ▸ Nat.le_pred_of_lt (sum33 x y k).isLt
  obtain ⟨hlow, hhigh⟩ := exactDiff_bounds x y k
  exact ⟨hsum, rfl, addWithCarry_exact x y k, hlow, hhigh, subWithBorrow_exact x y k,
    fun p => not_negative_and_zero p.r⟩

/-- An operation that the reference listing wires to a difference is answered with outputs driven from complement-and-add, the
adder's carry-in being the complement of the borrow-in. -/
theorem exists_answers_drivenFrom_complement_add {i : Instr} {a b x y : Word} {cin : Bool} (ci : Bool)
    (h : eval i a b cin = packFlags (subWithBorrow x y (!ci))) :
    ∃ t, Answers i a b cin t ∧ DrivenFrom t (addWithCarry x (~~~y) ci) := by
  rw [subWithBorrow_eq_addWithCarry, Bool.not_not] at h
  exact exists_answers_drivenFrom h

/-- Settles O11: each of the five is a subtraction by the wiring, and so a complement-and-add. -/
theorem subtractionIsComplementAndAdd : Obligations.SubtractionIsComplementAndAdd :=
  ⟨subWithBorrow_eq_addWithCarry, fun a b cin =>
    ⟨⟨_, answers_eval .sub a b cin, answers_eval .cmp a b cin, drivenFrom_complement_add a b false⟩,
      exists_answers_drivenFrom_complement_add cin (eval_sbc a b cin),
      exists_answers_drivenFrom_complement_add true (eval_rsb a b cin),
      exists_answers_drivenFrom_complement_add cin (eval_rsc a b cin)⟩⟩

/-- Settles O12: the result wraps around at most once, and V says whether it does. -/
theorem overflowFlagIsSignedOverflow : Obligations.OverflowFlagIsSignedOverflow := by
  intro x y k
  have hadd := addWithCarry_vo_iff x y k
  have hsub := subWithBorrow_vo_iff x y k
  exact ⟨⟨hadd, wrapped_result_of_cases hadd (addWithCarry_sint_r_cases x y k)⟩,
    ⟨hsub, wrapped_result_of_cases hsub (subWithBorrow_sint_r_cases x y k)⟩⟩

/-- C of a sum without a carry-in: the operands alone do not fit in 32 bits (spec/40_primitives.md R62). -/
theorem packFlags_addWithCarry_false_c_iff (a b : Word) :
    (packFlags (addWithCarry a b false)).c = true ↔ 2 ^ 32 ≤ uint a + uint b := by
  rw [packFlags_c, addWithCarry_co_iff, Bool.toNat_false, Nat.add_zero]

/-- Settles O13: C is the carry-out of the operation's primitive call. -/
theorem carryFlagIsUnsignedOverflow : Obligations.CarryFlagIsUnsignedOverflow := fun a b cin =>
  ⟨⟨packFlags (addWithCarry a b false), answers_eval .add a b cin, packFlags_addWithCarry_false_c_iff a b⟩,
    ⟨packFlags (addWithCarry a b cin), answers_eval .adc a b cin, addWithCarry_co_iff a b cin⟩,
    ⟨packFlags (subWithBorrow a b false), answers_eval .sub a b cin, answers_eval .cmp a b cin,
      packFlags_subWithBorrow_false_c_eq_false_iff a b⟩,
    ⟨packFlags (subWithBorrow a b (!cin)), answers_eval .sbc a b cin, subWithBorrow_co_iff a b (!cin)⟩,
    ⟨packFlags (subWithBorrow b a false), answers_eval .rsb a b cin, packFlags_subWithBorrow_false_c_eq_false_iff b a⟩,
    ⟨packFlags (subWithBorrow b a (!cin)), answers_eval .rsc a b cin, subWithBorrow_co_iff b a (!cin)⟩⟩

/-- Settles O14: for the subtraction primitive, on the adder it is equal to. -/
theorem overflowIsCarryInXorCarryOut : Obligations.OverflowIsCarryInXorCarryOut := by
  refine fun x y k => ⟨addWithCarry_vo_eq_xor x y k, ?_⟩
  rw [subWithBorrow_eq_addWithCarry]
  exact addWithCarry_vo_eq_xor x (~~~y) (!k)

/-- Settles O15: all three answer the packed difference `x - y` without a borrow-in. -/
theorem flagsOrderTheOperands : Obligations.FlagsOrderTheOperands := fun x y cin =>
  ⟨packFlags (subWithBorrow x y false), answers_eval .sub x y cin, answers_eval .cmp x y cin, answers_eval .rsb y x cin,
    packFlags_subWithBorrow_false_z_iff x y, packFlags_subWithBorrow_false_c_iff x y,
    packFlags_subWithBorrow_false_n_xor_v_iff x y⟩

/-- Settles O16: `exec` answers as the reference listing does, and the datapath equals the listing. -/
theorem oneAdderServesAllSeven : Obligations.OneAdderServesAllSeven := by
  refine ⟨controls_eq_code_bits, fun i a b cin => ⟨?_, datapath_eq_eval i a b cin⟩⟩
  rw [datapath_eq_eval]
  exact answers_eval i a b cin

end Sys2Proof.Claims

/-! PROOFS. The laws between operations that the spec marks as its own inferences: the add pair (R73, R74), SUB of a value from
itself and of zero (R78), the exchange of operands (R82, R83), and which operations read the carry-in (R12, R42). -/

namespace Sys2Proof.Machine

/-- The result of the addition primitive, in arithmetic modulo 2^32 (spec/40_primitives.md R51). -/
theorem addWithCarry_r (x y : Word) (ci : Bool) : (addWithCarry x y ci).r = x + y + BitVec.ofNat 32 ci.toNat := by
  calc (addWithCarry x y ci).r = (((uint x : Int) + uint y + ci.toNat : Int) : Word) := addWithCarry_r_eq_trunc32 x y ci
    _ = BitVec.ofNat 32 (uint x) + BitVec.ofNat 32 (uint y) + BitVec.ofNat 32 ci.toNat := by push_cast; rfl
    _ = x + y + BitVec.ofNat 32 ci.toNat := by simp only [BitVec.ofNat_toNat, BitVec.setWidth_eq]

/-- A carry-in of 1 adds 1 to the result (spec/41_add_adc.md R74). -/
theorem addWithCarry_true_r (x y : Word) : (addWithCarry x y true).r = (addWithCarry x y false).r + 1#32 := by
  simp [addWithCarry_r]

/-- A borrow-in of 1 takes 1 from the result. -/
theorem subWithBorrow_false_r (x y : Word) : (subWithBorrow x y false).r = (subWithBorrow x y true).r + 1#32 := by
  simp [subWithBorrow_r]

/-- Without the control signal `usec` the carry-in does not enter the evaluation (spec/10_state.md R12). -/
theorem eval_eq_of_usecOf_eq_false {i : Instr} (h : usecOf i = false) (a b : Word) (cin cin' : Bool) :
    eval i a b cin = eval i a b cin' := by
  cases i with
  | add | sub | rsb | cmp => rfl
  | adc | sbc | rsc => cases h

/-- With the control signal `usec` the carry-in adds 1 to the result (spec/30_encoding.md R42). -/
theorem eval_true_result_of_usecOf {i : Instr} (h : usecOf i = true) (a b : Word) :
    (eval i a b true).result = (eval i a b false).result + 1#32 := by
  cases i with
  | add | sub | rsb | cmp => cases h
  | adc => exact addWithCarry_true_r a b
  | sbc => exact subWithBorrow_false_r a b
  | rsc => exact subWithBorrow_false_r b a

/-- An operation's code on the port: the step answers with that operation's response. -/
theorem step_of_op_eq_encode {s : State} {i : Instr} (h : s.req.op = encode i) :
    step s = .next (s.respond (eval i s.req.a s.req.b s.req.cin)) :=
  (step_next_iff s _).mpr ⟨i, (decodeOp_ok_iff s.req.op i).mpr h, rfl⟩

end Sys2Proof.Machine

namespace Sys2Proof.Claims

open Sys2Proof.Machine

/-- ADC answers alike with its operands exchanged (spec/41_add_adc.md R73). -/
theorem eval_adc_comm (a b : Word) (cin : Bool) : eval .adc a b cin = eval .adc b a cin := by
  rw [eval_adc, eval_adc, addWithCarry_comm]

/-- Settles O25: one primitive call serves ADC with carry-in 0 and ADD, and it is commutative. -/
theorem addPairCommutesAndAgrees : Obligations.AddPairCommutesAndAgrees := fun a b cin cin' =>
  ⟨sameResponse_of_eval_eq ((eval_adc a b false).trans (eval_add a b cin).symm),
    sameResponse_of_eval_eq (eval_add_comm a b cin cin'), sameResponse_of_eval_eq (eval_adc_comm a b cin)⟩

/-- Settles O26: the carry-in of 1 adds 1 to the first sum, as the second ADD does. -/
theorem adcResultIsTwoAddsButFlagsDiffer : Obligations.AdcResultIsTwoAddsButFlagsDiffer := by
  refine ⟨fun s a b cin => ?results, row_of_eval (by decide), rowAnyCarry_of_eval (by decide),
    rowAnyCarry_of_eval (by decide)⟩
  case results =>
    have hresult : (addWithCarry a b true).r = (addWithCarry (addWithCarry a b false).r 1#32 false).r := by
      rw [addWithCarry_true_r, addWithCarry_r _ 1#32 false]
      exact (add_zero _).symm
    exact ⟨_, _, _, step_of_op_eq_encode (i := .adc) rfl, step_of_op_eq_encode (i := .add) rfl,
      step_of_op_eq_encode (i := .add) rfl, hresult⟩

/-- Settles O28: SUB of zero and ADD of zero keep the operand, and only their carries differ. -/
theorem subtractingItselfAndZero : Obligations.SubtractingItselfAndZero := fun a cin =>
  ⟨rowAnyCarry_sub_self a cin, _, answers_sub_zero a cin, rfl, answers_add_zero a cin⟩

/-- Exchanging the operands of SBC gives RSC with the same carry-in (spec/43_rsb_rsc.md R82). -/
theorem eval_sbc_eq_eval_rsc (a b : Word) (cin : Bool) : eval .sbc a b cin = eval .rsc b a cin := by
  rw [eval_sbc, eval_rsc]

/-- Settles O29: the two operations of each pair are wired to one primitive call. -/
theorem reverseSubtractExchangesOperands : Obligations.ReverseSubtractExchangesOperands := by
  intro p q cin cin'
  have hrsb := answers_eval .rsb q p cin'
  have hrsc := answers_eval .rsc q p cin
  rw [← eval_sub_eq_eval_rsb p q cin] at hrsb
  rw [← eval_sbc_eq_eval_rsc] at hrsc
  exact ⟨⟨_, answers_eval .sub p q cin, hrsb, drivenFrom_packFlags _⟩,
    ⟨_, answers_eval .sbc p q cin, hrsc, drivenFrom_packFlags _⟩⟩

/-- Settles O30: RSC with the carry set and RSB are one primitive call. -/
theorem rscWithCarrySetIsRsb : Obligations.RscWithCarrySetIsRsb := by
  intro a b cin
  have hrsc := answers_eval .rsc a b true
  rw [eval_rsc_true_eq_eval_rsb a b cin] at hrsc
  exact ⟨_, hrsc, answers_eval .rsb a b cin, drivenFrom_packFlags _⟩

/-- Settles O32: the control signal `usec` says whether the carry-in is read, and where it is read it moves the result. -/
theorem carryInMattersToWithCarryVariantsOnly : Obligations.CarryInMattersToWithCarryVariantsOnly := by
  intro i a b
  refine ⟨fun hi => ?carryless, fun hi => ?withCarry⟩
  case carryless =>
    have husec : usecOf i = false := by rcases hi with rfl | rfl | rfl | rfl <;> rfl
    exact sameResponse_of_eval_eq (eval_eq_of_usecOf_eq_false husec a b false true)
  case withCarry =>
    have husec : usecOf i = true := by rcases hi with rfl | rfl | rfl <;> rfl
    have hsucc := eval_true_result_of_usecOf husec a b
    have hne : (eval i a b false).result ≠ (eval i a b true).result := by
      rw [hsucc]
      exact (add_ne_left.mpr (by decide)).symm
    exact ⟨_, _, answers_eval i a b false, answers_eval i a b true, hsucc, hne⟩

end Sys2Proof.Claims

/-! PROOFS. The statements on the caller's boundary (spec/10_state.md sections 1 and 4): wider integers are reduced at the port
(R11), and the carry fed back chains two evaluations to 64 bits (R24). -/

namespace Sys2Proof.Machine

/-- Integers that agree modulo 2^32 truncate to one word. -/
theorem trunc32_eq_of_emod_eq {k l : Int} (h : k % 2 ^ 32 = l % 2 ^ 32) : trunc32 k = trunc32 l := by
  rw [eq_trunc32_iff, trunc32_toNat, h]

/-- The signed range is that of the signed reading. -/
theorem inSigned32_norm32 (k : Int) : InSigned32 (norm32 k) :=
  ⟨BitVec.le_toInt _, Int.le_sub_one_of_lt BitVec.toInt_lt⟩

/-- Normalisation moves an integer by a multiple of 2^32 (spec/00_scope.md R7). -/
theorem norm32_sub_emod (k : Int) : (norm32 k - k) % 2 ^ 32 = 0 := by
  have hr := trunc32_toNat k
  rw [norm32, sint_eq_ite]
  split <;> omega

/-- Only the integer itself lies in the signed range and agrees with it modulo 2^32. -/
theorem norm32_eq_self {k : Int} (h : InSigned32 k) : norm32 k = k := by
  have hrange := inSigned32_norm32 k
  have hmod := norm32_sub_emod k
  omega

/-- The table's formula respects reduction modulo 2^32: it is made of sums and differences. -/
theorem tableFormula_emod (i : Instr) (k l : Int) (cin : Bool) :
    tableFormula i (k % 2 ^ 32) (l % 2 ^ 32) cin % 2 ^ 32 = tableFormula i k l cin % 2 ^ 32 := by
  cases i <;> simp only [tableFormula] <;> omega

/-- On truncated operands an operation answers its formula on the integers themselves, truncated (spec/10_state.md R11). -/
theorem eval_trunc32_result (i : Instr) (k l : Int) (cin : Bool) :
    (eval i (trunc32 k) (trunc32 l) cin).result = trunc32 (tableFormula i k l cin) := by
  calc (eval i (trunc32 k) (trunc32 l) cin).result
      = trunc32 (tableFormula i (uint (trunc32 k)) (uint (trunc32 l)) cin) := eval_result ..
    _ = trunc32 (tableFormula i (k % 2 ^ 32) (l % 2 ^ 32) cin) := by rw [trunc32_toNat, trunc32_toNat]
    _ = trunc32 (tableFormula i k l cin) := trunc32_eq_of_emod_eq (tableFormula_emod i k l cin)

/-- The carry of the low sum, added to the high sum, gives the exact 64-bit sum (spec/41_add_adc.md). -/
theorem addWithCarry_two_words (xl yl xh yh : Word) :
    let lo := addWithCarry xl yl false
    let hi := addWithCarry xh yh lo.co
    2 ^ 64 * hi.co.toNat + 2 ^ 32 * uint hi.r + uint lo.r = (2 ^ 32 * uint xh + uint xl) + (2 ^ 32 * uint yh + uint yl) := by
  intro lo hi
  have hlo : uint xl + uint yl + 0 = 2 ^ 32 * lo.co.toNat + uint lo.r := addWithCarry_exact xl yl false
  have hhi : uint xh + uint yh + lo.co.toNat = 2 ^ 32 * hi.co.toNat + uint hi.r := addWithCarry_exact xh yh lo.co
  omega

/-- The borrow of the low difference, taken from the high difference, gives the exact 64-bit difference
(spec/42_sub_sbc.md, spec/43_rsb_rsc.md). -/
theorem subWithBorrow_two_words (xl yl xh yh : Word) :
    let lo := subWithBorrow xl yl false
    let hi := subWithBorrow xh yh (!lo.co)
    2 ^ 32 * (uint hi.r : Int) + uint lo.r - 2 ^ 64 * (!hi.co).toNat
      = (2 ^ 32 * (uint xh : Int) + uint xl) - (2 ^ 32 * (uint yh : Int) + uint yl) := by
  intro lo hi
  have hlo : (uint xl : Int) - uint yl - 0 = uint lo.r - 2 ^ 32 * (1 - lo.co.toNat) := subWithBorrow_exact xl yl false
  have hhi : (uint xh : Int) - uint yh - (!lo.co).toNat = uint hi.r - 2 ^ 32 * (1 - hi.co.toNat) :=
    subWithBorrow_exact xh yh (!lo.co)
  rw [natCast_toNat_not] at hhi ⊢
  omega

/-- Two evaluations, the second fed the carry of the first: what each answers (spec/10_state.md R23, R24). -/
theorem step_present_then_chain (s : State) (i j : Instr) (al bl ah bh : Word) (c0 : Bool) :
    ∃ t u : State, step (s.present { op := encode i, a := al, b := bl, cin := c0 }) = .next t
      ∧ step (t.chain (encode j) ah bh) = .next u
      ∧ t.resp = eval i al bl c0 ∧ u.resp = eval j ah bh (eval i al bl c0).c :=
  ⟨_, _, step_of_op_eq_encode rfl, step_of_op_eq_encode rfl, rfl, rfl⟩

end Sys2Proof.Machine

namespace Sys2Proof.Claims

open Sys2Proof.Machine

/-- Settles O37: truncation respects agreement modulo 2^32, and so does the formula of every operation. -/
theorem widerOperandsAreReduced : Obligations.WiderOperandsAreReduced := by
  refine ⟨fun k m => ⟨trunc32_eq_of_emod_eq (Int.add_mul_emod_self_left k (2 ^ 32) m), inSigned32_norm32 k,
    norm32_eq_self, norm32_sub_emod k⟩, fun s i k l cin => ?_⟩
  exact ⟨_, step_of_op_eq_encode rfl, eval_trunc32_result i k l cin⟩

/-- Settles O38: the carry-less operation of each pair answers the low words, the with-carry one the high words. -/
theorem callersCarryChainsToSixtyFourBits : Obligations.CallersCarryChainsToSixtyFourBits := by
  intro s al ah bl bh c0
  refine ⟨?sum, ?difference, ?reversed⟩
  case sum =>
    obtain ⟨t, u, ht, hu, htresp, huresp⟩ := step_present_then_chain s .add .adc al bl ah bh c0
    refine ⟨t, u, ht, hu, ?_⟩
    rw [htresp, huresp]
    exact addWithCarry_two_words al bl ah bh
  case difference =>
    obtain ⟨t, u, ht, hu, htresp, huresp⟩ := step_present_then_chain s .sub .sbc al bl ah bh c0
    refine ⟨t, u, ht, hu, ?_⟩
    rw [htresp, huresp]
    exact subWithBorrow_two_words al bl ah bh
  case reversed =>
    obtain ⟨t, u, ht, hu, htresp, huresp⟩ := step_present_then_chain s .rsb .rsc al bl ah bh c0
    refine ⟨t, u, ht, hu, ?_⟩
    rw [htresp, huresp]
    exact subWithBorrow_two_words bl al bh ah

end Sys2Proof.Claims
